-- ==== Sys2Proof/Word.lean ====
section
/-! DEFINITION. The word types of the spec (R10, R12 of 00_scope.md; R31 of 10_state.md). -/

namespace Sys2Proof

/-- `u8`: a control register, a transaction data byte, a register identifier (R10). -/
abbrev Byte := BitVec 8

/-- `u16`: a register pair, the next-packet pointer, the frame length, the status vector, a PHY register (R10). -/
abbrev Word := BitVec 16

/-- `u13`: an address of the device buffer memory (R12, R30, R31). -/
abbrev Ptr := BitVec 13

/-- A control-register address, the 5-bit ARG of an opcode byte (R70). -/
abbrev Addr := BitVec 5

/-- A bank selector (R75). -/
abbrev Bank := BitVec 2

end Sys2Proof
end

