-- ==== Sys2Proof/Syntax.lean ====
section
/-! DEFINITION. The seven bus transactions, one constructor per row of spec/opcode_table.json (R4, R71). -/

namespace Sys2Proof

/-- A bus transaction: one frame between chip-select assert and deassert (R69, R71).
Its arguments are the 5-bit address of the opcode byte and the payload bytes `tx[1..]` (R74). -/
inductive Instr where
  /-- RCR, read control register: `fill` are the filler bytes sent, one, or two with the dummy byte (R92). -/
  | rcr (addr : Addr) (fill : List Byte)
  /-- RBM, read buffer memory: `fill` are the N filler bytes sent (R94). -/
  | rbm (fill : List Byte)
  /-- WCR, write control register (R96). -/
  | wcr (addr : Addr) (data : Byte)
  /-- WBM, write buffer memory: the N data bytes (R98). -/
  | wbm (data : List Byte)
  /-- BFS, bit-field set (R100). -/
  | bfs (addr : Addr) (mask : Byte)
  /-- BFC, bit-field clear (R102). -/
  | bfc (addr : Addr) (mask : Byte)
  /-- SRC, system reset (R104). -/
  | src
  deriving DecidableEq, Repr

end Sys2Proof
end

