-- ==== Sys2Proof/WellFormed.lean ====
section
/-! DEFINITION. Which transactions have the frame length the opcode map fixes (R71, R80). -/

namespace Sys2Proof

/-- The frame lengths of R80 hold: an RCR frame is 2 or 3 bytes long.
The other constructors carry exactly the payload their row allows. -/
abbrev Instr.WellFormed : Instr → Prop
  | .rcr _ fill => fill.length = 1 ∨ fill.length = 2
  | .rbm _ => True
  | .wcr _ _ => True
  | .wbm _ => True
  | .bfs _ _ => True
  | .bfc _ _ => True
  | .src => True

end Sys2Proof
end

