-- ==== Sys2Proof/Decode.lean ====
section
/-! DEFINITION. The decoder of a frame's bytes, total and rejecting by name, and the encoder (30_encoding.md). -/

namespace Sys2Proof

/-- The operation an opcode byte names (R71). -/
inductive Opcode where
  | rcr | rbm | wcr | wbm | bfs | bfc | src
  deriving DecidableEq, Repr

/-- One row of the opcode map: `tx[0] & mask = pattern` selects the operation (R71). -/
structure OpcodeRow where
  op : Opcode
  pattern : Byte
  mask : Byte
  deriving DecidableEq, Repr

/-- The opcode map of R71, in the table's order. -/
def opcodeRows : List OpcodeRow :=
  [ ⟨.rcr, 0x00, 0xE0⟩,
    ⟨.rbm, 0x3A, 0xFF⟩,
    ⟨.wcr, 0x40, 0xE0⟩,
    ⟨.wbm, 0x7A, 0xFF⟩,
    ⟨.bfs, 0x80, 0xE0⟩,
    ⟨.bfc, 0xA0, 0xE0⟩,
    ⟨.src, 0xFF, 0xFF⟩ ]

/-- Whether an opcode byte is of a row (R71). -/
def OpcodeRow.admits (r : OpcodeRow) (b : Byte) : Bool := b &&& r.mask == r.pattern

/-- The operation of an opcode byte; none for the 125 unassigned bytes (R78). -/
def opcodeOf (b : Byte) : Option Opcode :=
  (opcodeRows.find? fun r => r.admits b).map OpcodeRow.op

/-- ARG, bits 4:0 of the opcode byte (R70). -/
def argOf (b : Byte) : Addr := b.setWidth 5

/-- Why a byte list is no transaction. -/
inductive Reject where
  /-- No byte at all: a frame has L ≥ 1 (R69). -/
  | empty
  /-- The opcode byte is one of the 125 unassigned values (R78). -/
  | reservedOpcode
  /-- The length is not the opcode's (R80). -/
  | frameLength
  deriving DecidableEq, Repr

/-- What the decoder answers. -/
inductive Decoded where
  | ok (i : Instr)
  | rejected (why : Reject)
  deriving DecidableEq, Repr

/-- The transaction of an operation, the opcode byte's argument and the payload (R74, R80). -/
def decodePayload : Opcode → Addr → List Byte → Decoded
  | .rcr, a, [f] => .ok (.rcr a [f])
  | .rcr, a, [f, g] => .ok (.rcr a [f, g])
  | .rcr, _, _ => .rejected .frameLength
  | .rbm, _, fill => .ok (.rbm fill)
  | .wcr, a, [v] => .ok (.wcr a v)
  | .wcr, _, _ => .rejected .frameLength
  | .wbm, _, data => .ok (.wbm data)
  | .bfs, a, [m] => .ok (.bfs a m)
  | .bfs, _, _ => .rejected .frameLength
  | .bfc, a, [m] => .ok (.bfc a m)
  | .bfc, _, _ => .rejected .frameLength
  | .src, _, [] => .ok .src
  | .src, _, _ => .rejected .frameLength

/-- The transaction a frame's bytes stand for (R69, R71, R78, R80). -/
def decode : List Byte → Decoded
  | [] => .rejected .empty
  | b :: payload =>
    match opcodeOf b with
    | none => .rejected .reservedOpcode
    | some op => decodePayload op (argOf b) payload

/-- The opcode constant of a row OR'd with a 5-bit address (R73). -/
def opbyte (constant : Byte) (a : Addr) : Byte := constant ||| a.setWidth 8

/-- The bytes the block sends for a transaction, opcode byte first (R69, R73, R74). -/
def encode : Instr → List Byte
  | .rcr a fill => opbyte 0x00 a :: fill
  | .rbm fill => 0x3A :: fill
  | .wcr a v => [opbyte 0x40 a, v]
  | .wbm data => 0x7A :: data
  | .bfs a m => [opbyte 0x80 a, m]
  | .bfc a m => [opbyte 0xA0 a, m]
  | .src => [0xFF]

/-- The first `n` bytes of a word numbered as spec/opcode_table.json numbers bits, the first byte lowest. -/
def wordBytes : Nat → Nat → List Byte
  | 0, _ => []
  | n + 1, w => BitVec.ofNat 8 w :: wordBytes n (w / 256)

/-- The frame of a table word: its bytes, then zero bytes up to two for an opcode that takes a payload (log 28). -/
def tableFrame (nbits w : Nat) : List Byte :=
  match wordBytes (nbits / 8) w with
  | [] => []
  | [b] => if opcodeOf b = some .src ∨ opcodeOf b = none then [b] else [b, 0x00]
  | bs => bs

/-- The instruction the decoder reads from a table word. -/
def decodeTableWord (nbits w : Nat) : Option Instr :=
  match decode (tableFrame nbits w) with
  | .ok i => some i
  | .rejected _ => none

end Sys2Proof
end

