-- ==== Sys2Proof/Config.lean ====
section
/-! DEFINITION. The parameters of R9 (00_scope.md), their values at reset, and the free values. -/

namespace Sys2Proof

/-- RX_ODD: where the device places the packet after a frame of odd length (R143). -/
inductive RxOdd where
  | padEven | shortOdd
  deriving DecidableEq, Repr

/-- PKTIF_MODEL: how the packet-interrupt flag is derived and cleared (R144). -/
inductive PktifModel where
  | countNonZero | stickyUntilCleared
  deriving DecidableEq, Repr

/-- TX_LEN_ORDER: the byte order of transmit's frame-length field (R55, R146). -/
inductive ByteOrder where
  | be | le
  deriving DecidableEq, Repr

/-- A MAC address, index 0 first (R55). -/
abbrev Mac := Vector Byte 6

/-- REGMAP as the block uses it: the identifier of each register its sequences name (R36).
For a register pair it is the low register's; the high one is that plus one (R111). -/
structure RegMap where
  econ1 : Byte
  eir : Byte
  estat : Byte
  eie : Byte
  erdptl : Byte
  ewrptl : Byte
  etxstl : Byte
  erxstl : Byte
  erxndl : Byte
  erxrdptl : Byte
  erxfcon : Byte
  micmd : Byte
  miregadr : Byte
  miwrl : Byte
  mirdl : Byte
  mistat : Byte
  deriving DecidableEq, Repr

/-- The default REGMAP (R36). PRESUMED by the spec: the ENC28J60's addresses (log 7). -/
def RegMap.default : RegMap where
  econ1 := 0x1F
  eir := 0x1C
  estat := 0x1D
  eie := 0x1B
  erdptl := 0x00
  ewrptl := 0x02
  etxstl := 0x04
  erxstl := 0x08
  erxndl := 0x0A
  erxrdptl := 0x0C
  erxfcon := 0x38
  micmd := 0xD2
  miregadr := 0xD4
  miwrl := 0xD6
  mirdl := 0xD8
  mistat := 0xEA

/-- The control registers of the device that hold bits (10_state.md Part B).
ESTAT, MISTAT and EREVID hold none: they are computed on a read (R90). -/
structure DevRegs where
  /-- Buffer read pointer (R31). -/
  erdpt : Ptr
  /-- Buffer write pointer (R31). -/
  ewrpt : Ptr
  /-- Transmit start (R31). -/
  etxst : Ptr
  /-- Transmit end (R31). -/
  etxnd : Ptr
  /-- Receive ring start (R31). -/
  erxst : Ptr
  /-- Receive ring end (R31). -/
  erxnd : Ptr
  /-- Receive ring read pointer, host-managed (R31). -/
  erxrdpt : Ptr
  /-- Receive ring write pointer, chip-managed (R31). -/
  erxwrpt : Ptr
  /-- ECON1 (R39). -/
  econ1 : Byte
  /-- ECON2 (R40). -/
  econ2 : Byte
  /-- EIR as stored; PKTIF is computed under countNonZero (R42, R144). -/
  eir : Byte
  /-- EIE (R43). -/
  eie : Byte
  /-- EPKTCNT (R35). -/
  epktcnt : Byte
  /-- MIREGADR, bits 4:0 (R44). -/
  miregadr : BitVec 5
  /-- MICMD (R44). -/
  micmd : Byte
  /-- MIWRL (R44). -/
  miwrl : Byte
  /-- MIWRH (R44). -/
  miwrh : Byte
  /-- MIRDL (R44). -/
  mirdl : Byte
  /-- MIRDH (R44). -/
  mirdh : Byte
  /-- Every other location of the banks, plain storage, at index 32·bank + address (R29, R45, R46). -/
  plain : Vector Byte 128
  deriving DecidableEq, Repr, Inhabited

/-- The default DEV_RESET (R48). PRESUMED by the spec: the ENC28J60's reset image (log 7). -/
def DevRegs.reset : DevRegs where
  erdpt := 0x05FA
  ewrpt := 0x0000
  etxst := 0x0000
  etxnd := 0x0000
  erxst := 0x05FA
  erxnd := 0x1FFF
  erxrdpt := 0x05FA
  erxwrpt := 0x0000
  econ1 := 0x00
  econ2 := 0x80
  eir := 0x00
  eie := 0x00
  epktcnt := 0x00
  miregadr := 0x00
  micmd := 0x00
  miwrl := 0x00
  miwrh := 0x00
  mirdl := 0x00
  mirdh := 0x00
  -- ERXFCON = 0xA1 (bank 1, 0x18); MAMXFL = 0x0600 (bank 2, 0x0A and 0x0B)
  plain := ((Vector.replicate 128 0x00).set 56 0xA1).set 75 0x06

/-- The PHY operation in flight (R33). -/
inductive PhyOp where
  | none
  | rd (p : BitVec 5)
  | wr (p : BitVec 5) (v : Word)
  deriving DecidableEq, Repr, Inhabited

/-- The result code of an operation with the info it carries (R154). -/
inductive Err where
  | ok
  | busFault
  | timeout (id : Byte)
  | invalidRegister (id : Byte)
  | transmitAborted
  | receiveOverrun
  deriving DecidableEq, Repr, Inhabited

/-- The numeric codes of R154. -/
def Err.code : Err → Nat
  | .ok => 0
  | .busFault => 1
  | .timeout _ => 2
  | .invalidRegister _ => 3
  | .transmitAborted => 4
  | .receiveOverrun => 5

/-- INIT_CFG, the operand of initialize (R151). -/
structure InitCfg where
  rxStart : Ptr
  rxEnd : Ptr
  rxRdpt : Ptr
  filter : Byte
  /-- MACCFG: (identifier, value) pairs, in order. -/
  macCfg : List (Byte × Byte)
  localMac : Mac
  /-- MACADDR_ID[k], the register receiving LOCAL_MAC[k]. -/
  macAddrId : Vector Byte 6
  /-- PHYCFG[0] and PHYCFG[1]: (PHY address, value). -/
  phyCfg0 : Byte × Word
  phyCfg1 : Byte × Word
  ie : Byte
  deriving DecidableEq, Repr

/-- The defaults of R151, for examples only. -/
def InitCfg.default : InitCfg where
  rxStart := 0x05FA
  rxEnd := 0x1FFF
  rxRdpt := 0x05FA
  filter := 0xA1
  macCfg := [(0xC0, 0x0D), (0xC2, 0x33), (0xC3, 0x40), (0xCA, 0xEE), (0xCB, 0x05), (0xC4, 0x15), (0xC6, 0x12),
    (0xC7, 0x0C)]
  localMac := #v[0x02, 0x00, 0x00, 0x00, 0x00, 0x01]
  macAddrId := #v[0xE4, 0xE5, 0xE2, 0xE3, 0xE0, 0xE1]
  phyCfg0 := (0x00, 0x0100)
  phyCfg1 := (0x10, 0x0100)
  ie := 0xC0

/-- The parameters of R9 that are not fixed by a literal.
A machine has one value of it for its whole run: it stands in State and no step changes it (log 3). -/
structure Config where
  /-- POLL_LIMIT: none is the unbounded busy-wait, some n is Timeout after n unmet polls (R115). -/
  pollLimit : Option Nat
  /-- BUF_CAP, at least 6 (R27). -/
  bufCap : Nat
  /-- RESET_SETTLE, in any unit: no rule depends on its value (R148). -/
  resetSettle : Nat
  /-- REGMAP (R36). -/
  regmap : RegMap
  /-- REG_VALID: the identifiers that name an existing register (R38). -/
  regValid : List Byte
  /-- DEV_MACMII: bit 32·bank + address is the class of that location (R37). -/
  devMacmii : BitVec 128
  /-- RX_ODD (R143). -/
  rxOdd : RxOdd
  /-- PKTIF_MODEL (R144). -/
  pktif : PktifModel
  /-- DEV_RESET (R48). -/
  devReset : DevRegs
  /-- SRC_MAC (R146). -/
  srcMac : Mac
  /-- FRAME_LEN (R146). -/
  frameLen : Word
  /-- TX_LEN_ORDER (R146). -/
  txLenOrder : ByteOrder
  deriving DecidableEq, Repr

namespace Config

/-- ADDR_BITS (R9). -/
def ADDR_BITS : Nat := 5

/-- NBANKS (R9). -/
def NBANKS : Nat := 4

/-- HDR_LEN: a receive header is 6 bytes (R9, R130). -/
def HDR_LEN : Nat := 6

/-- FILLER (R9, R74). -/
def FILLER : Byte := 0x00

/-- MEM_SIZE: bytes of device buffer memory (R30). -/
def MEM_SIZE : Nat := 8192

/-- The identifiers of R36's default map, row by row; a common address counts in every bank (R38). -/
def defaultRegValid : List Byte :=
  -- ERDPT, EWRPT, ETXST, ETXND, ERXST, ERXND, ERXRDPT, ERXWRPT
  [0x00, 0x01, 0x02, 0x03, 0x04, 0x05, 0x06, 0x07, 0x08, 0x09, 0x0A, 0x0B, 0x0C, 0x0D, 0x0E, 0x0F] ++
  -- EDMAST, EDMAND, EDMADST, EDMACS
  [0x10, 0x11, 0x12, 0x13, 0x14, 0x15, 0x16, 0x17] ++
  -- EHT0..EHT7, EPMM0..EPMM7
  [0x20, 0x21, 0x22, 0x23, 0x24, 0x25, 0x26, 0x27, 0x28, 0x29, 0x2A, 0x2B, 0x2C, 0x2D, 0x2E, 0x2F] ++
  -- EPMCS, EPMO, ERXFCON, EPKTCNT
  [0x30, 0x31, 0x34, 0x35, 0x38, 0x39] ++
  -- MACON1, MACON3, MACON4, MABBIPG, MAIPG, MACLCON1, MACLCON2, MAMXFL
  [0xC0, 0xC2, 0xC3, 0xC4, 0xC6, 0xC7, 0xC8, 0xC9, 0xCA, 0xCB] ++
  -- MICMD, MIREGADR, MIWR, MIRD
  [0xD2, 0xD4, 0xD6, 0xD7, 0xD8, 0xD9] ++
  -- MAADR5, MAADR6, MAADR3, MAADR4, MAADR1, MAADR2, MISTAT
  [0xE0, 0xE1, 0xE2, 0xE3, 0xE4, 0xE5, 0xEA] ++
  -- EBSTSD, EBSTCON, EBSTCS, EREVID, ECOCON, EFLOCON, EPAUS
  [0x66, 0x67, 0x68, 0x69, 0x72, 0x75, 0x77, 0x78, 0x79] ++
  -- EIE, EIR, ESTAT, ECON2, ECON1 in each of the four banks
  [0x1B, 0x1C, 0x1D, 0x1E, 0x1F, 0x3B, 0x3C, 0x3D, 0x3E, 0x3F] ++
  [0x5B, 0x5C, 0x5D, 0x5E, 0x5F, 0x7B, 0x7C, 0x7D, 0x7E, 0x7F]

/-- The default DEV_MACMII (R37): one 32-bit word per bank, bank 3 first.
Bank 2 addresses 0x00..0x1A; bank 3 addresses 0x00..0x05 and 0x0A. -/
def defaultDevMacmii : BitVec 128 := 0x0000043F_07FFFFFF_00000000_00000000

/-- The parameters of State.reset: the spec's defaults, and where R9 says OPEN the values 95_test_vectors.md
assumes. DESIGN CHOICE (log 3). -/
def default : Config where
  pollLimit := none
  bufCap := 1518
  resetSettle := 0
  regmap := RegMap.default
  regValid := defaultRegValid
  devMacmii := defaultDevMacmii
  rxOdd := .padEven
  pktif := .countNonZero
  devReset := DevRegs.reset
  srcMac := #v[0x10, 0x20, 0x30, 0x40, 0x50, 0x60]
  frameLen := 0x0002
  txLenOrder := .be

/-- What R9 asks of the parameters: BUF_CAP ≥ 6 and a positive poll limit. -/
abbrev Admissible (c : Config) : Prop := 6 ≤ c.bufCap ∧ c.pollLimit ≠ some 0

/-! The free values: the spec's `any` (R13). Each is an opaque function of the draw counter, so no proof can see
a value (log 8). -/

/-- A response byte, an unwritten memory byte, an unstored register bit. -/
opaque freeByte : Nat → Byte

/-- A PHY register after a device reset (R48). -/
opaque freePhyReg : Nat → BitVec 5 → Word

/-- The device's registers where the whole device state is `any` (R156, R161). -/
opaque freeRegs : Nat → DevRegs

/-- PHYOP where it becomes `any` (R123). -/
opaque freePhyOp : Nat → PhyOp

/-- CLKRDY where the whole device state is `any`. -/
opaque freeClkrdy : Nat → Bool

/-- x[ERR] after F_RX_OVERFLOW (log 13). -/
opaque freeErr : Nat → Err

/-- A latch after a block reset (R47). -/
opaque freeWord : Nat → Word

/-- Whether the device fails to work in a move while ECON2.PWRSV is set (R170, log 37). -/
opaque freeDoze : Nat → Bool

/-- Whether an Ethernet frame fits where R63 defines no distance in the ring (log 14). -/
opaque freeFits : Nat → Bool

end Config

end Sys2Proof
end

