-- ==== Sys2Proof/Machine/State.lean ====
section
/-! DEFINITION. The state of the block and of its environment (10_state.md), as plain data, and its reset. -/

namespace Sys2Proof.Machine

/-- Reasons for which a step stops with a fault: none.
The spec's model faults are recorded in x[FAULTS] and the machine goes on (R161, `ModelFault`); an error ends the
operation, not the machine (R155). Nothing raises a value of this type, so whether it is safe does not arise. -/
inductive Fault : Type
  deriving DecidableEq, Repr

/-- Reasons for which a step has no meaning. -/
inductive Refusal where
  /-- The instruction has no meaning yet; raised only by an arm of `exec` that rejects its instruction by name
  (no arm does). Safe: the machine stops. -/
  | notModelled (mnemonic : String)
  deriving DecidableEq, Repr

/-- The model faults of R161, recorded in x[FAULTS]. -/
inductive ModelFault where
  /-- A frame while the settling delay runs (R88, R105). -/
  | settle
  /-- A frame whose length is not its opcode's (R80). -/
  | frameLength
  /-- BFS or BFC on a MAC/MII-class register (R101, R103). -/
  | bitopMacmii
  /-- An opcode byte outside the seven (R78). -/
  | reservedOpcode
  /-- A PHY operation started while one is in flight (R123). -/
  | phyOverlap
  /-- An operation requested while another runs (R162). -/
  | reentry
  /-- A received frame length above BUF_CAP (R135). -/
  | rxOverflow
  deriving DecidableEq, Repr

/-- A block operation with its operands: what the Caller may request (R4, R154). -/
inductive Op where
  /-- The seven transactions as the block offers them (R92 to R104). -/
  | readControlRegister (address : Byte) (extraDummyByte : Bool)
  | readBufferMemory (length : Nat)
  | writeControlRegister (address value : Byte)
  | writeBufferMemory (bytes : List Byte)
  | bitFieldSet (address mask : Byte)
  | bitFieldClear (address mask : Byte)
  | systemReset
  /-- Bank-switched registers and pairs (R108, R109, R112, R113). -/
  | readRegister (id : Byte)
  | writeRegister (id value : Byte)
  | readRegisterPair (lowId : Byte)
  | writeRegisterPair (lowId : Byte) (value : Word)
  /-- PHY indirect access (R120, R121). The spec gives the address `p` no width before the check `p <= 31` (R119);
  it is a byte here, so an address above 255 cannot be requested (log 35). -/
  | readPhy (p : Byte)
  | writePhy (p : Byte) (value : Word)
  /-- Receive, transmit, initialization (R126, R146, R152). -/
  | receivePacket
  | sendPacket (dst : Mac) (payload : List Byte)
  | init (cfg : InitCfg)
  deriving DecidableEq, Repr

/-- x[PHYST] (R19). -/
inductive PhySt where
  | idle | requesting | busyPolling
  deriving DecidableEq, Repr

/-- x[RXST] (R20). -/
inductive RxSt where
  | idle | enable | waitPkt | disable | header | body | wbRdpt | wbErdpt
  deriving DecidableEq, Repr

/-- One frame of the bus log (R14, R28). -/
structure Frame where
  tx : List Byte
  rx : List Byte
  deriving DecidableEq, Repr

/-- The value an operation returns to the Caller (R15). -/
inductive Value where
  /-- No operation has returned a value, or the last one ended in an error. -/
  | none
  /-- The operation returned and has no value. -/
  | unit
  | byte (b : Byte)
  | bytes (bs : List Byte)
  | word (w : Word)
  /-- receivePacket: frame length, next-packet pointer, status vector (R126). -/
  | packet (flen npp rsv : Word)
  deriving DecidableEq, Repr

/-- The registers of the block (R17 to R28). -/
structure Block where
  /-- x[CS]: true while chip select is asserted (R17). -/
  cs : Bool
  /-- x[OP]; none is Idle (R18). -/
  op : Option Op
  /-- x[STEP] (R18). -/
  step : Nat
  /-- x[PHYST] (R19). -/
  physt : PhySt
  /-- x[RXST] (R20). -/
  rxst : RxSt
  /-- x[NPP] (R21). -/
  npp : Word
  /-- x[FLEN] (R22). -/
  flen : Word
  /-- x[RSV] (R23). -/
  rsv : Word
  /-- x[POLLCNT] (R24). -/
  pollcnt : Nat
  /-- x[SETTLING] (R25); the device's own `settling` is State's `devSettling`. -/
  settling : Bool
  /-- x[ERR] (R26). -/
  err : Err
  /-- x[FAULTS], in the order first recorded, no repeats (R26, R161). -/
  faults : List ModelFault
  /-- x[BUF], the caller-owned receive buffer (R27). -/
  buf : List Byte
  /-- x[LOG], oldest first (R28). -/
  log : List Frame
  /-- The Caller's out-parameter nextPacketPointer (R126, R130). -/
  nppOut : Word
  /-- What the last operation returned (R15). -/
  ret : Value
  /-- What the last `Frame(tx)` returned (R14); the model's own (log 10). -/
  rx : List Byte
  /-- The local `l` of readRegisterPair (R112); the model's own (log 10). -/
  low : Byte
  deriving DecidableEq, Repr

/-- The state of the device at the far end of the bus (10_state.md Part B). -/
structure Device where
  /-- The control registers (R29, R31, R36 to R46). -/
  regs : DevRegs
  /-- PHYOP (R33). -/
  phyop : PhyOp
  /-- CLKRDY (R34). -/
  clkrdy : Bool
  /-- PR[0..31] (R32). -/
  pr : Vector Word 32
  /-- Buffer memory: the bytes written since the last reset, addresses rising (R30, R50). -/
  mem : List Host.Cell
  deriving DecidableEq, Repr

/-- One move of an agent (R8); it happens between two frames (R64). -/
inductive Event where
  /-- The block takes the next step of its operation. -/
  | block
  /-- The Caller requests an operation (R162). -/
  | request (o : Op)
  /-- The Caller stores a byte in its own buffer (R27). -/
  | callerStore (index : Nat) (v : Byte)
  /-- The Bus will report a failure of the next frame, after it received these bytes (R156). -/
  | busFail (received : List Byte)
  /-- A frame goes on the bus from outside the block's sequences (R161, log 16). -/
  | frame (tx : List Byte)
  /-- The PHY engine's step, phyComplete (R123). -/
  | phy
  /-- The clock agent's step (R34). -/
  | clock
  /-- An Ethernet frame arrives with its status word (R142). -/
  | rx (f : List Byte) (status : Word)
  /-- The device is powered on (R171, R173). -/
  | powerOn
  /-- The block is reset, and the device left alone (R47, R171). -/
  | blockReset
  deriving DecidableEq, Repr

/-- The machine: the block, the device and its engines, and what the outside world does to them. -/
structure State where
  /-- The parameters (R9); no step changes them. -/
  cfg : Config
  blk : Block
  dev : Device
  /-- The device's `settling`: true from a system-reset frame until the block's Settle() completes (R105, log 11). -/
  devSettling : Bool
  /-- The Bus's pending report of a transfer failure (R156, log 19). -/
  bus : Option (List Byte)
  /-- The agents' moves to come, next first; with none left the block moves (log 1). -/
  agenda : List Event
  /-- How many free values have been drawn (log 8). -/
  draws : Nat
  deriving DecidableEq, Repr

/-- The block right after block reset (R47); what the rule leaves unspecified is 0 or empty (log 4, 5, 10). -/
def Block.reset (bufCap : Nat) : Block where
  cs := false
  op := none
  step := 0
  physt := .idle
  rxst := .idle
  npp := 0
  flen := 0
  rsv := 0
  pollcnt := 0
  settling := false
  err := .ok
  faults := []
  buf := List.replicate bufCap 0
  log := []
  nppOut := 0
  ret := .none
  rx := []
  low := 0

/-- The device right after power-on (R48, R173); the PHY registers, which the rule leaves `any`, are 0 (log 6). -/
def Device.reset (image : DevRegs) : Device where
  regs := image
  phyop := .none
  clkrdy := false
  pr := Vector.replicate 32 0
  mem := []

/-- The machine right after reset: block reset and device power-on (R171). -/
def State.reset : State where
  cfg := Config.default
  blk := Block.reset Config.default.bufCap
  dev := Device.reset Config.default.devReset
  devSettling := false
  bus := none
  agenda := []
  draws := 0

end Sys2Proof.Machine
end

