-- ==== Sys2Proof/Machine/Operands.lean ====
section
/-! DEFINITION. Operands: byte order, the register address decoder, bank translation, the identifier checks. -/

namespace Sys2Proof.Machine

/-- `lo8(v)` (R12). -/
def lo8 (v : Word) : Byte := v.setWidth 8

/-- `hi8(v)` (R12). -/
def hi8 (v : Word) : Byte := (v >>> 8).setWidth 8

/-- `le16(l, h)` (R12, R53). -/
def le16 (l h : Byte) : Word := l.setWidth 16 ||| (h.setWidth 16 <<< 8)

/-- The low byte of a 13-bit pointer pair (R31). -/
def ptrLow (p : Ptr) : Byte := p.setWidth 8

/-- The high byte of a 13-bit pointer pair; bits 7:5 read 0 (R31). -/
def ptrHigh (p : Ptr) : Byte := (p >>> 8).setWidth 8

/-- A pointer after a write of its low byte. -/
def withPtrLow (p : Ptr) (v : Byte) : Ptr := (p &&& 0x1F00) ||| v.setWidth 13

/-- A pointer after a write of its high byte, of which bits 4:0 are stored (R31, R91). -/
def withPtrHigh (p : Ptr) (v : Byte) : Ptr := ((v &&& 0x1F).setWidth 13 <<< 8) ||| (p &&& 0x00FF)

/-- A(id) (R76). -/
def idAddr (id : Byte) : Addr := (id &&& 0x1F).setWidth 5

/-- B(id) (R76). -/
def idBank (id : Byte) : Bank := ((id &&& 0x60) >>> 5).setWidth 2

/-- M(id) = 1 (R76). -/
def idMac (id : Byte) : Bool := (id >>> 7) &&& 1 == 1

/-- The identifier of a decoded triple (R75, R76). -/
def identifier (m : Bool) (b : Bank) (a : Addr) : Byte :=
  ((if m then 1 else 0) <<< 7) ||| (b.setWidth 8 <<< 5) ||| a.setWidth 8

/-- REG_VALID(id) (R38). -/
def regValid (c : Config) (id : Byte) : Bool := c.regValid.contains id

/-- DEV_MACMII(b, a) (R37). -/
def devMacmii (c : Config) (b : Bank) (a : Addr) : Bool := c.devMacmii.getLsbD (32 * b.toNat + a.toNat)

/-- The filler bytes of an RCR frame: one, and the dummy byte where the register's class asks for it (R74, R92). -/
def rcrFill (dummy : Bool) : List Byte :=
  if dummy then [Config.FILLER, Config.FILLER] else [Config.FILLER]

/-- A control-register location CR(b, a) (R29). -/
structure Loc where
  bank : Bank
  addr : Addr
  deriving DecidableEq, Repr

/-- `loc(a)` under a bank selector: addresses 0x1B..0x1F are common (R51, R89). -/
def locOf (bsel : Bank) (a : Addr) : Loc := if a ≤ 0x1A then ⟨bsel, a⟩ else ⟨0, a⟩

/-- The place of a location in the plain store. -/
def Loc.index (l : Loc) : Fin 128 :=
  ⟨32 * l.bank.toNat + l.addr.toNat, by have := l.bank.isLt; have := l.addr.isLt; omega⟩

/-- The 13-bit buffer pointers (R31). -/
inductive PtrName where
  | erdpt | ewrpt | etxst | etxnd | erxst | erxnd | erxrdpt | erxwrpt
  deriving DecidableEq, Repr

/-- What a location of the device holds (R36 to R46). -/
inductive Reg where
  | ptrLo (p : PtrName)
  | ptrHi (p : PtrName)
  | eie | eir | estat | econ2 | econ1
  | epktcnt
  | micmd | miregadr | miwrl | miwrh | mirdl | mirdh | mistat
  | erevid
  /-- Plain storage, by its place in the store (R45, R46). -/
  | plain (k : Fin 128)
  /-- No register of R36 stands here (log 17). -/
  | absent (k : Fin 128)
  deriving DecidableEq, Repr

/-- Bank 0 of R36. -/
def regBank0 (k : Fin 128) : Nat → Reg
  | 0x00 => .ptrLo .erdpt
  | 0x01 => .ptrHi .erdpt
  | 0x02 => .ptrLo .ewrpt
  | 0x03 => .ptrHi .ewrpt
  | 0x04 => .ptrLo .etxst
  | 0x05 => .ptrHi .etxst
  | 0x06 => .ptrLo .etxnd
  | 0x07 => .ptrHi .etxnd
  | 0x08 => .ptrLo .erxst
  | 0x09 => .ptrHi .erxst
  | 0x0A => .ptrLo .erxnd
  | 0x0B => .ptrHi .erxnd
  | 0x0C => .ptrLo .erxrdpt
  | 0x0D => .ptrHi .erxrdpt
  | 0x0E => .ptrLo .erxwrpt
  | 0x0F => .ptrHi .erxwrpt
  | a => if a ≤ 0x17 then .plain k else .absent k          -- EDMA*

/-- Bank 1 of R36: EHT, EPMM, EPMCS, EPMO, ERXFCON, EPKTCNT. -/
def regBank1 (k : Fin 128) : Nat → Reg
  | 0x19 => .epktcnt
  | a => if a ≤ 0x11 ∨ a = 0x14 ∨ a = 0x15 ∨ a = 0x18 then .plain k else .absent k

/-- Bank 2 of R36: the MAC configuration and MII registers. -/
def regBank2 (k : Fin 128) : Nat → Reg
  | 0x12 => .micmd
  | 0x14 => .miregadr
  | 0x16 => .miwrl
  | 0x17 => .miwrh
  | 0x18 => .mirdl
  | 0x19 => .mirdh
  | a => if a ∈ [0x00, 0x02, 0x03, 0x04, 0x06, 0x07, 0x08, 0x09, 0x0A, 0x0B] then .plain k else .absent k

/-- Bank 3 of R36: MAADR, EBST, MISTAT, EREVID, ECOCON, EFLOCON, EPAUS. -/
def regBank3 (k : Fin 128) : Nat → Reg
  | 0x0A => .mistat
  | 0x12 => .erevid
  | a => if a ≤ 0x09 ∨ a = 0x15 ∨ a = 0x17 ∨ a = 0x18 ∨ a = 0x19 then .plain k else .absent k

/-- The register at a location, the default map of R36 (log 32). -/
def regAt (l : Loc) : Reg :=
  match l.addr.toNat with
  | 0x1B => .eie
  | 0x1C => .eir
  | 0x1D => .estat
  | 0x1E => .econ2
  | 0x1F => .econ1
  | a =>
    match l.bank.toNat with
    | 0 => regBank0 l.index a
    | 1 => regBank1 l.index a
    | 2 => regBank2 l.index a
    | _ => regBank3 l.index a

/-- The high identifier of a pair (R111). -/
def pairHigh (lowId : Byte) : Byte := lowId + 1

/-- One check an operation makes before its first frame (R158). -/
inductive Check where
  /-- REG_VALID of an identifier (R106). -/
  | register (id : Byte)
  /-- The low address of a pair is at most 0x1E (R111). -/
  | pairLow (lowId : Byte)
  /-- A PHY address is at most 31 (R119). -/
  | phyAddr (p : Byte)
  deriving DecidableEq, Repr

/-- Whether a check passes. -/
def Check.passes (c : Config) : Check → Bool
  | .register id => regValid c id
  | .pairLow id => decide (idAddr id ≤ 0x1E)
  | .phyAddr p => decide (p ≤ 31)

/-- What InvalidRegister carries when a check fails (R154). -/
def Check.offending : Check → Byte
  | .register id => id
  | .pairLow id => id
  | .phyAddr p => p

/-- The checks of a pair operation, in order (R112, R113). -/
def pairChecks (lowId : Byte) : List Check := [.pairLow lowId, .register lowId, .register (pairHigh lowId)]

/-- The checks of an operation, in the order its rule makes them (R106, R112, R113, R120, R121, R126, R152). -/
def checks (c : Config) : Op → List Check
  | .readControlRegister _ _ => []
  | .readBufferMemory _ => []
  | .writeControlRegister _ _ => []
  | .writeBufferMemory _ => []
  | .bitFieldSet _ _ => []
  | .bitFieldClear _ _ => []
  | .systemReset => []
  | .readRegister id => [.register id]
  | .writeRegister id _ => [.register id]
  | .readRegisterPair id => pairChecks id
  | .writeRegisterPair id _ => pairChecks id
  | .readPhy p =>
    [.phyAddr p, .register c.regmap.miregadr, .register c.regmap.micmd, .register c.regmap.mistat]
      ++ pairChecks c.regmap.mirdl
  | .writePhy p _ =>
    [.phyAddr p, .register c.regmap.miregadr] ++ pairChecks c.regmap.miwrl ++ [.register c.regmap.mistat]
  | .receivePacket => [.register c.regmap.eir] ++ pairChecks c.regmap.erxrdptl ++ pairChecks c.regmap.erdptl
  | .sendPacket _ _ => []
  | .init i =>
    pairChecks c.regmap.erxstl ++ pairChecks c.regmap.erxndl ++ pairChecks c.regmap.erxrdptl
      ++ [.register c.regmap.erxfcon, .register c.regmap.estat, .register c.regmap.miregadr]
      ++ pairChecks c.regmap.miwrl ++ [.register c.regmap.mistat] ++ pairChecks c.regmap.ewrptl
      ++ pairChecks c.regmap.etxstl ++ [.register c.regmap.eie]
      ++ i.macCfg.map (fun e => .register e.1) ++ i.macAddrId.toList.map .register
      ++ [.phyAddr i.phyCfg0.1, .phyAddr i.phyCfg1.1]

/-- The first check of an operation that fails, if one does. -/
def firstFailing (c : Config) (o : Op) : Option Check := (checks c o).find? fun k => !k.passes c

end Sys2Proof.Machine
end

