-- ==== Sys2Proof/Machine/Flags.lean ====
section
/-! DEFINITION. The status and control bits of the device, and how each is computed (R39 to R44, R90, R144).
The block itself has no flags (R88). -/

namespace Sys2Proof.Machine

/-- The two bank-select bits of ECON1, the clear mask of the bank sequence (R39, R107). -/
def bselMask : Byte := 0x03

/-- ECON1.RXEN (R39, R127, R129). -/
def rxenMask : Byte := 0x04

/-- EIR.PKTIF (R42, R128). -/
def pktifMask : Byte := 0x40

/-- EIR.RXERIF (R42, R142). -/
def rxerifMask : Byte := 0x01

/-- MISTAT.BUSY (R44). -/
def busyMask : Byte := 0x01

/-- ESTAT.CLKRDY (R41, R150). -/
def clkrdyMask : Byte := 0x01

/-- MICMD.MIIRD, the read command (R44, R120). -/
def miirdCommand : Byte := 0x01

/-- BSEL = ECON1[1:0] (R29, R39). -/
def bsel (r : DevRegs) : Bank := r.econ1.setWidth 2

/-- ECON1.RXEN (R39). -/
def rxen (r : DevRegs) : Bool := r.econ1.getLsbD 2

/-- ECON2.AUTOINC (R40). -/
def autoinc (r : DevRegs) : Bool := r.econ2.getLsbD 7

/-- ECON2.PWRSV (R40, R170). -/
def pwrsv (r : DevRegs) : Bool := r.econ2.getLsbD 5

/-- EIR.PKTIF under PKTIF_MODEL (R144). -/
def pktif (c : Config) (r : DevRegs) : Bool :=
  match c.pktif with
  | .countNonZero => r.epktcnt != 0
  | .stickyUntilCleared => r.eir.getLsbD 6

/-- The value EIR reads: stored bits 5, 4, 3, 1 and 0, PKTIF; bits 7 and 2 read 0 (R42, R90). -/
def eirValue (c : Config) (r : DevRegs) : Byte :=
  (r.eir &&& 0x3B) ||| (if pktif c r then pktifMask else 0)

/-- What a write stores in EIR: bit 6 is written only under stickyUntilCleared (R91, R144). -/
def eirStored (c : Config) (old v : Byte) : Byte :=
  match c.pktif with
  | .countNonZero => (v &&& 0x3B) ||| (old &&& 0x40)
  | .stickyUntilCleared => v &&& 0x7B

/-- The value ESTAT reads: CLKRDY in bit 0, the rest free (R41, R90). -/
def estatValue (clkrdy : Bool) (free : Byte) : Byte := (free <<< 1) ||| (if clkrdy then clkrdyMask else 0)

/-- The value MISTAT reads: BUSY exactly while a PHY operation is in flight (R33, R90). -/
def mistatValue (p : PhyOp) : Byte := if p = .none then 0x00 else busyMask

/-- AUTOINC, PWRSV and VRPS, the bits ECON2 stores; the others read 0 (R40, R91). -/
def econ2Bits : Byte := 0xA8

/-- MIIRD and MIISCAN, the bits MICMD stores; the others read 0 (R44, R91). -/
def micmdBits : Byte := 0x03

/-- The bits EIR can hold; bits 7 and 2 read 0 (R42). -/
def eirBits : Byte := 0x7B

/-- ECON2.PKTDEC: writing 1 decrements EPKTCNT if it is not 0 (R40, R91). -/
def pktdec (cnt v : Byte) : Byte := if v.getLsbD 6 = true ∧ cnt ≠ 0 then cnt - 1 else cnt

end Sys2Proof.Machine
end

