-- ==== Sys2Proof/Machine/Ops.lean ====
section
/-! DEFINITION. The named operations over memory, device registers, the bus and the result of an operation. -/

namespace Sys2Proof.Machine

/-! ## Buffer memory (R30, R50) -/

/-- The canonical form: addresses strictly rising, all inside MEM_SIZE.
A byte nothing has written has no entry and no value (log 9). -/
abbrev Memory.wf (m : List Host.Cell) : Prop :=
  m.Pairwise (fun x y => x.1 < y.1) ∧ ∀ x ∈ m, x.1 < Config.MEM_SIZE

/-- The byte last written to an address, none if nothing has written it since reset (R50). -/
def Memory.read : List Host.Cell → Nat → Option Byte
  | [], _ => none
  | x :: m, a => if x.1 = a then some x.2 else Memory.read m a

/-- MemWrite(addr, 1, v) on the list (R50). -/
def Memory.write : List Host.Cell → Nat → Byte → List Host.Cell
  | [], a, v => [(a, v)]
  | x :: m, a, v =>
    if a < x.1 then (a, v) :: x :: m
    else if x.1 = a then (a, v) :: m
    else x :: Memory.write m a v

/-- MemRead(addr, 1): an unwritten byte reads the given free value (R50). -/
def memRead (m : List Host.Cell) (p : Ptr) (free : Byte) : Byte := (Memory.read m p.toNat).getD free

/-- MemWrite(addr, 1, v) (R50). -/
def memWrite (m : List Host.Cell) (p : Ptr) (v : Byte) : List Host.Cell := Memory.write m p.toNat v

/-! ## Pointers (R31, R61, R62) -/

/-- A buffer pointer by name (R31). -/
def getPtr (r : DevRegs) : PtrName → Ptr
  | .erdpt => r.erdpt
  | .ewrpt => r.ewrpt
  | .etxst => r.etxst
  | .etxnd => r.etxnd
  | .erxst => r.erxst
  | .erxnd => r.erxnd
  | .erxrdpt => r.erxrdpt
  | .erxwrpt => r.erxwrpt

/-- A buffer pointer written by a frame: ERXWRPT is read-only, and ERXST carries ERXWRPT along (R91, R145). -/
def putPtr (r : DevRegs) (p : PtrName) (v : Ptr) : DevRegs :=
  match p with
  | .erdpt => { r with erdpt := v }
  | .ewrpt => { r with ewrpt := v }
  | .etxst => { r with etxst := v }
  | .etxnd => { r with etxnd := v }
  | .erxst => { r with erxst := v, erxwrpt := v }
  | .erxnd => { r with erxnd := v }
  | .erxrdpt => { r with erxrdpt := v }
  | .erxwrpt => r

/-- ERDPT after a byte read with AUTOINC = 1: it wraps from ERXND to ERXST (R61). -/
def nextRead (r : DevRegs) (p : Ptr) : Ptr := if p = r.erxnd then r.erxst else p + 1

/-- ERDPT after a byte read (R61, R95). -/
def advanceRead (r : DevRegs) (p : Ptr) : Ptr := if autoinc r then nextRead r p else p

/-- EWRPT after a byte written: no wrap at the ring (R62, R99). -/
def advanceWrite (r : DevRegs) (p : Ptr) : Ptr := if autoinc r then p + 1 else p

/-! ## Free values (R13) -/

/-- `n` free bytes from a draw on. -/
def freeBytes : Nat → Nat → List Byte
  | _, 0 => []
  | d, n + 1 => Config.freeByte d :: freeBytes (d + 1) n

/-- The device where its whole state is `any` (R156, R161).
Bits the device does not have stay 0, and no memory byte has a known value (log 21). -/
def anyDevice (d : Nat) : Device where
  regs :=
    let r := Config.freeRegs d
    { r with econ2 := r.econ2 &&& econ2Bits, eir := r.eir &&& eirBits, micmd := r.micmd &&& micmdBits }
  phyop := Config.freePhyOp d
  clkrdy := Config.freeClkrdy d
  pr := Vector.ofFn fun p => Config.freePhyReg d (BitVec.ofFin p)
  mem := []

/-- DEV_RESET: the register image, PHYOP none, CLKRDY false, PHY registers and memory `any` (R48, R105). -/
def resetDevice (c : Config) (d : Nat) : Device where
  regs := c.devReset
  phyop := .none
  clkrdy := false
  pr := Vector.ofFn fun p => Config.freePhyReg d (BitVec.ofFin p)
  mem := []

/-! ## Control registers of the device (R89 to R91) -/

/-- `loc(a)` of the device as it stands (R89). -/
def devLoc (r : DevRegs) (a : Addr) : Loc := locOf (bsel r) a

/-- `stored(loc(a))`: the stored byte; a register that stores none gives 0, which no write keeps (R101). -/
def devStored (r : DevRegs) (a : Addr) : Byte :=
  match regAt (devLoc r a) with
  | .ptrLo p => ptrLow (getPtr r p)
  | .ptrHi p => ptrHigh (getPtr r p)
  | .eie => r.eie
  | .eir => r.eir
  | .estat => 0
  | .econ2 => r.econ2
  | .econ1 => r.econ1
  | .epktcnt => r.epktcnt
  | .micmd => r.micmd
  | .miregadr => r.miregadr.setWidth 8
  | .miwrl => r.miwrl
  | .miwrh => r.miwrh
  | .mirdl => r.mirdl
  | .mirdh => r.mirdh
  | .mistat => 0
  | .erevid => 0
  | .plain k => r.plain[k]
  | .absent k => r.plain[k]

/-- `devRead(a)`: the byte the device returns, given a free byte for what it leaves open (R90, log 17). -/
def devRead (c : Config) (d : Device) (a : Addr) (free : Byte) : Byte :=
  match regAt (devLoc d.regs a) with
  | .ptrLo p => ptrLow (getPtr d.regs p)
  | .ptrHi p => ptrHigh (getPtr d.regs p)
  | .eie => d.regs.eie
  | .eir => eirValue c d.regs
  | .estat => estatValue d.clkrdy free
  | .econ2 => d.regs.econ2 &&& econ2Bits
  | .econ1 => d.regs.econ1
  | .epktcnt => d.regs.epktcnt
  | .micmd => d.regs.micmd &&& micmdBits
  | .miregadr => d.regs.miregadr.setWidth 8
  | .miwrl => d.regs.miwrl
  | .miwrh => d.regs.miwrh
  | .mirdl => d.regs.mirdl
  | .mirdh => d.regs.mirdh
  | .mistat => mistatValue d.phyop
  | .erevid => free
  | .plain k => d.regs.plain[k]
  | .absent _ => free

/-- The device and the model faults of a write. -/
structure Written where
  dev : Device
  faults : List ModelFault
  deriving DecidableEq, Repr

/-- `phyStart(op)`: an overlap makes PHYOP `any` (R123). -/
def phyStart (draw : Nat) (o : PhyOp) (d : Device) : Written :=
  if d.phyop = .none then ⟨{ d with phyop := o }, []⟩
  else ⟨{ d with phyop := Config.freePhyOp draw }, [.phyOverlap]⟩

/-- `devWrite(a, v)`: what a frame's write of a byte does (R91, R144, R145). -/
def devWrite (c : Config) (draw : Nat) (a : Addr) (v : Byte) (d : Device) : Written :=
  let r := d.regs
  match regAt (devLoc r a) with
  | .ptrLo p => ⟨{ d with regs := putPtr r p (withPtrLow (getPtr r p) v) }, []⟩
  | .ptrHi p => ⟨{ d with regs := putPtr r p (withPtrHigh (getPtr r p) v) }, []⟩
  | .eie => ⟨{ d with regs := { r with eie := v } }, []⟩
  | .eir => ⟨{ d with regs := { r with eir := eirStored c r.eir v } }, []⟩
  | .estat => ⟨d, []⟩
  | .econ2 => ⟨{ d with regs := { r with econ2 := v &&& econ2Bits, epktcnt := pktdec r.epktcnt v } }, []⟩
  | .econ1 => ⟨{ d with regs := { r with econ1 := v } }, []⟩
  | .epktcnt => ⟨d, []⟩
  | .micmd =>
    let d' := { d with regs := { r with micmd := v &&& micmdBits } }
    if v.getLsbD 0 then phyStart draw (.rd r.miregadr) d' else ⟨d', []⟩
  | .miregadr => ⟨{ d with regs := { r with miregadr := (v &&& 0x1F).setWidth 5 } }, []⟩
  | .miwrl => ⟨{ d with regs := { r with miwrl := v } }, []⟩
  | .miwrh => phyStart draw (.wr r.miregadr (le16 r.miwrl v)) { d with regs := { r with miwrh := v } }
  | .mirdl => ⟨d, []⟩
  | .mirdh => ⟨d, []⟩
  | .mistat => ⟨d, []⟩
  | .erevid => ⟨d, []⟩
  | .plain k => ⟨{ d with regs := { r with plain := r.plain.set k v } }, []⟩
  | .absent k => ⟨{ d with regs := { r with plain := r.plain.set k v } }, []⟩

/-! ## Model faults, errors and results (R154 to R161) -/

/-- `fault F(info)` on the set: recorded once, never cleared in the run (R26, R161). -/
def insertFault (fs : List ModelFault) (f : ModelFault) : List ModelFault := if f ∈ fs then fs else fs ++ [f]

/-- Several faults recorded in order. -/
def insertFaults (fs new : List ModelFault) : List ModelFault := new.foldl insertFault fs

/-- `fault F(info)` on the machine (R161). -/
def recordFault (f : ModelFault) (s : State) : State :=
  { s with blk := { s.blk with faults := insertFault s.blk.faults f } }

/-- TAKING AN EXCEPTION: `raise E(info)` ends the operation at once and gives the error to the Caller (R155).
Nothing is saved, no mode changes and no handler runs (R163); nothing is rolled back. -/
def raise (e : Err) (s : State) : State :=
  { s with blk := { s.blk with err := e, physt := .idle, rxst := .idle, op := none, ret := .none } }

/-- THE NORMAL RETURN: the operation ends and its value goes to the Caller (R18, R154).
There is no return from an error: the Caller has its result already (R163). -/
def finish (v : Value) (s : State) : State :=
  { s with blk := { s.blk with err := .ok, physt := .idle, rxst := .idle, op := none, ret := v } }

/-! ## The bus (R14, R88, R156) -/

/-- What the device makes of a frame: its next state, the model faults, the response bytes. -/
structure DevOut where
  dev : Device
  faults : List ModelFault
  rx : List Byte
  deriving DecidableEq, Repr

/-- Whether a frame now is F_SETTLE: x[SETTLING] is true, or the device is settling (R88, R105, R161). -/
def State.settling (s : State) : Bool := s.blk.settling || s.devSettling

/-- Whether the device does not work in this move: never while ECON2.PWRSV is clear; while it is set a free value, since
neither that the device keeps working nor that it loses state may be assumed (R170).
DESIGN CHOICE: one free value decides for one whole move, a frame or an engine's step (log 37). -/
def State.dozing (s : State) : Bool := pwrsv s.dev.regs && Config.freeDoze s.draws

/-- Whether the effect of the frame `tx` is `any`: during the settling delay, whatever the frame (R105, R161), and in a
device that dozes, but for SRC, which resets the device from any state (R105, R156, R170). -/
def State.anyEffect (tx : List Byte) (s : State) : Bool := s.settling || (tx != encode .src && s.dozing)

/-- A frame begins: chip select is asserted; during the settling delay F_SETTLE is recorded (R14, R88, R105). -/
def beginFrame (s : State) : State :=
  { s with blk := { s.blk with
      cs := true
      faults := if s.settling then insertFault s.blk.faults .settle else s.blk.faults } }

/-- A frame ends: chip select is deasserted, the frame is logged, the device has its effect (R14, R64). -/
def endFrame (tx : List Byte) (out : DevOut) (s : State) : State :=
  { s with
    blk := { s.blk with
      cs := false
      log := s.blk.log ++ [⟨tx, out.rx⟩]
      rx := out.rx
      faults := insertFaults s.blk.faults out.faults }
    dev := out.dev
    draws := s.draws + tx.length }

/-- The response where every byte of it is `any`. -/
def anyResponse (tx : List Byte) (s : State) : List Byte := freeBytes s.draws tx.length

/-- The effect of a frame that is `any` (R105, R161, R170). The model faults it causes are recorded all the same
(R78, R80, log 23, log 37). -/
def anyOut (tx : List Byte) (faults : List ModelFault) (s : State) : DevOut :=
  ⟨anyDevice s.draws, faults, anyResponse tx s⟩

/-- The effect of a failed frame: the bytes received are logged, the rest and the device are `any` (R156).
DESIGN CHOICE: it records no model fault of the device side, because how much arrived is unknown (log 19). -/
def failedOut (tx received : List Byte) (s : State) : DevOut :=
  ⟨anyDevice s.draws, [], (received ++ anyResponse tx s).take tx.length⟩

/-- `Frame(tx)`: the only way the block touches the bus (R14).
`out` is the device's effect when the frame gets through and its effect is not `any`; where it is `any` the frame's own model
faults are recorded all the same, during settling beside F_SETTLE (R78, R80, R105, R170, log 23, log 37).
DESIGN CHOICE: a frame from outside the block's sequences that the bus fails raises BusFault in the block as the block's own
does: it ends an operation in progress, and with the block Idle it sets x[ERR] and the returned value (log 16). -/
def transact (tx : List Byte) (out : DevOut) (s : State) : State :=
  match s.bus with
  | some received => raise .busFault { endFrame tx (failedOut tx received s) (beginFrame s) with bus := none }
  | none =>
    if s.anyEffect tx then endFrame tx (anyOut tx out.faults s) (beginFrame s)
    else endFrame tx out (beginFrame s)

/-- A frame the device gives no effect and records a model fault for (R78, R80). -/
def noEffect (f : ModelFault) (tx : List Byte) (s : State) : DevOut := ⟨s.dev, [f], anyResponse tx s⟩

/-- A write frame: the device's write, the response ignored (R74, R97). -/
def writeOut (w : Written) (tx : List Byte) (s : State) : DevOut := ⟨w.dev, w.faults, anyResponse tx s⟩

end Sys2Proof.Machine
end

