-- ==== Sys2Proof/Machine/Agents.lean ====
section
/-! DEFINITION. The device's engines: the PHY engine, the clock agent and the RX engine (R33, R34, R123, R142 to R145).
They step between frames only (R64); a step that is not enabled does nothing (log 24). -/

namespace Sys2Proof.Machine

/-- `phyComplete()` (R123). -/
def phyComplete (d : Device) : Device :=
  match d.phyop with
  | .none => d
  | .rd p =>
    { d with
      phyop := .none
      regs := { d.regs with mirdl := lo8 d.pr[p.toFin], mirdh := hi8 d.pr[p.toFin] } }
  | .wr p v => { d with phyop := .none, pr := d.pr.set p.toFin v }

/-- The clock agent's step: CLKRDY becomes true (R34). -/
def clockReady (d : Device) : Device := { d with clkrdy := true }

/-! ## The ring (R63) -/

/-- The bounds of the receive ring. -/
structure Ring where
  first : Nat
  last : Nat
  deriving DecidableEq, Repr

/-- The ring [ERXST, ERXND] (R52). -/
def ringOf (r : DevRegs) : Ring := ⟨r.erxst.toNat, r.erxnd.toNat⟩

/-- `R = ERXND - ERXST + 1` (R63). DESIGN CHOICE: in a reversed ring (ERXND < ERXST), where R63 defines nothing, the
difference is taken as 0 and R as 1, so a frame that meets ERXRDPT = ERXWRPT there never fits (log 15). -/
def Ring.size (g : Ring) : Nat := g.last - g.first + 1

/-- Whether `ERXST <= p <= ERXND`, where the ring functions are defined (R63). -/
def Ring.contains (g : Ring) (p : Nat) : Bool := decide (g.first ≤ p ∧ p ≤ g.last)

/-- `ringAdd(p, k)` (R63). -/
def Ring.add (g : Ring) (p k : Nat) : Nat := g.first + (p - g.first + k) % g.size

/-- `ringDist(p, q) = (q - p) mod R` (R63). -/
def Ring.dist (g : Ring) (p q : Nat) : Nat := (((q : Int) - (p : Int)) % (g.size : Int)).toNat

/-- The free space the RX engine sees (R142). -/
def rxFree (r : DevRegs) : Nat :=
  if r.erxrdpt = r.erxwrpt then (ringOf r).size else (ringOf r).dist r.erxwrpt.toNat r.erxrdpt.toNat

/-- The bytes a frame of length L takes (R142). -/
def rxNeed (o : RxOdd) (len : Nat) : Nat := 6 + len + (if o = .padEven ∧ len % 2 = 1 then 1 else 0)

/-- Where a deposited frame sends the next one: `nextPacket` is what its header reports, `writePtr` is ERXWRPT. -/
structure Placed where
  nextPacket : Nat
  writePtr : Nat
  deriving DecidableEq, Repr

/-- `place(P, L)` (R143). -/
def place (o : RxOdd) (g : Ring) (p len : Nat) : Placed :=
  let after := g.add p (6 + len)
  match o with
  | .padEven =>
    let n := if len % 2 = 1 then g.add after 1 else after
    ⟨n, n⟩
  | .shortOdd => ⟨if after % 2 = 1 then g.add after (g.size - 1) else after, after⟩

/-- The six header bytes (R54, R142). -/
def rxHeader (npp len status : Word) : List Byte :=
  [lo8 npp, hi8 npp, lo8 len, hi8 len, lo8 status, hi8 status]

/-- The bytes of a packet stored in the ring from `p` on (R142). -/
def writeRing (g : Ring) (p : Nat) : List Byte → Nat → List Host.Cell → List Host.Cell
  | [], _, m => m
  | b :: bs, i, m => writeRing g p bs (i + 1) (Memory.write m (g.add p i) b)

/-- An overrun: EIR.RXERIF is set and the frame is dropped (R142). -/
def rxDrop (d : Device) : Device := { d with regs := { d.regs with eir := d.regs.eir ||| rxerifMask } }

/-- The packet-interrupt flag after a deposit: under stickyUntilCleared the deposit sets the stored bit (R144). -/
def eirDeposited (c : Config) (eir : Byte) : Byte :=
  match c.pktif with
  | .countNonZero => eir
  | .stickyUntilCleared => eir ||| pktifMask

/-- A deposit: the header and the frame go to the ring, ERXWRPT and EPKTCNT move on (R142). -/
def rxDeposit (c : Config) (f : List Byte) (status : Word) (d : Device) : Device :=
  let r := d.regs
  let g := ringOf r
  let p := r.erxwrpt.toNat
  let at' := place c.rxOdd g p f.length
  let header := rxHeader (BitVec.ofNat 16 at'.nextPacket) (BitVec.ofNat 16 f.length) status
  { d with
    mem := writeRing g p (header ++ f) 0 d.mem
    regs := { r with
      erxwrpt := BitVec.ofNat 13 at'.writePtr
      epktcnt := r.epktcnt + 1
      eir := eirDeposited c r.eir } }

/-- Whether a frame of length L fits (R142). With ERXWRPT outside the ring R63 gives `free` only where it equals ERXRDPT;
elsewhere the answer is free (log 14). -/
def rxFits (c : Config) (draw len : Nat) (r : DevRegs) : Bool :=
  if r.erxrdpt = r.erxwrpt ∨ (ringOf r).contains r.erxwrpt.toNat = true then decide (rxNeed c.rxOdd len < rxFree r)
  else Config.freeFits draw

/-- A deposit with ERXWRPT outside the ring, where R63 defines no `ringAdd`: the bytes written and their places are
`any`, so memory is, and ERXWRPT; the packet is counted (R142, R144, log 14). -/
def rxDepositOutside (c : Config) (draw : Nat) (d : Device) : Device :=
  let r := d.regs
  { d with
    mem := []
    regs := { r with
      erxwrpt := (Config.freeRegs draw).erxwrpt
      epktcnt := r.epktcnt + 1
      eir := eirDeposited c r.eir } }

/-- An Ethernet frame arrives (R142): it may be deposited only while ECON1.RXEN = 1, and 1 ≤ L ≤ 0xFFFF. -/
def rxArrive (c : Config) (draw : Nat) (f : List Byte) (status : Word) (d : Device) : Device :=
  let r := d.regs
  if rxen r = true ∧ 1 ≤ f.length ∧ f.length ≤ 0xFFFF then
    if r.epktcnt = 255 ∨ rxFits c draw f.length r = false then rxDrop d
    else if (ringOf r).contains r.erxwrpt.toNat then rxDeposit c f status d
    else rxDepositOutside c draw d
  else d

end Sys2Proof.Machine
end

