-- ==== Sys2Proof/Machine/Buffer.lean ====
section
/-! DEFINITION. The buffer-memory transactions: RBM and WBM (R94, R95, R98, R99). -/

namespace Sys2Proof.Machine

/-- What a read of `n` bytes from a read pointer on gives. -/
structure BufferRead where
  data : List Byte
  ptr : Ptr
  deriving DecidableEq, Repr

/-- `n` bytes from the read pointer on, and where it then stands (R95).
An unwritten byte reads the free value of its draw. -/
def readBuffer (r : DevRegs) (m : List Host.Cell) : Nat → Ptr → Nat → BufferRead
  | 0, p, _ => ⟨[], p⟩
  | n + 1, p, draw =>
    let rest := readBuffer r m n (advanceRead r p) (draw + 1)
    ⟨memRead m p (Config.freeByte draw) :: rest.data, rest.ptr⟩

/-- What a write of bytes from a write pointer on leaves. -/
structure BufferWritten where
  mem : List Host.Cell
  ptr : Ptr
  deriving DecidableEq, Repr

/-- The bytes stored from the write pointer on, and where it then stands (R99). -/
def writeBuffer (r : DevRegs) : List Byte → List Host.Cell → Ptr → BufferWritten
  | [], m, p => ⟨m, p⟩
  | b :: bs, m, p => writeBuffer r bs (memWrite m p b) (advanceWrite r p)

/-- The device side of RBM (R95): the filler bytes are ignored, the first response byte is `any`. -/
def rbmOut (n : Nat) (s : State) : DevOut :=
  let d := s.dev
  let out := readBuffer d.regs d.mem n d.regs.erdpt (s.draws + 1)
  ⟨{ d with regs := { d.regs with erdpt := out.ptr } }, [], Config.freeByte s.draws :: out.data⟩

/-- RBM, read buffer memory (R94, R95). -/
def execRbm (fill : List Byte) (s : State) : Host.Outcome State Fault Refusal :=
  .next (transact (encode (.rbm fill)) (rbmOut fill.length s) s)

/-- The device side of WBM (R99). -/
def wbmOut (data : List Byte) (tx : List Byte) (s : State) : DevOut :=
  let d := s.dev
  let out := writeBuffer d.regs data d.mem d.regs.ewrpt
  ⟨{ d with regs := { d.regs with ewrpt := out.ptr }, mem := out.mem }, [], anyResponse tx s⟩

/-- WBM, write buffer memory (R98, R99). -/
def execWbm (data : List Byte) (s : State) : Host.Outcome State Fault Refusal :=
  let tx := encode (.wbm data)
  .next (transact tx (wbmOut data tx s) s)

end Sys2Proof.Machine
end

