-- ==== Sys2Proof/Machine/Control.lean ====
section
/-! DEFINITION. The control-register transactions: RCR, WCR, BFS, BFC (R92, R93, R96, R97, R100 to R103). -/

namespace Sys2Proof.Machine

/-- The device side of RCR (R93): the register's class puts the value in `rx[1]` or in `rx[2]`; the other bytes
are `any`, and the k-th byte's free value is the k-th draw. -/
def rcrOut (a : Addr) (fill : List Byte) (s : State) : DevOut :=
  let free := fun k => Config.freeByte (s.draws + k)
  let value := fun k => devRead s.cfg s.dev a (free k)
  let mac := devMacmii s.cfg (bsel s.dev.regs) a
  match fill.length with
  | 1 => ⟨s.dev, [], [free 0, if mac then free 1 else value 1]⟩
  | 2 => ⟨s.dev, [], [free 0, if mac then free 1 else value 1, if mac then value 2 else free 2]⟩
  | _ => noEffect .frameLength (encode (.rcr a fill)) s

/-- RCR, read control register (R92, R93). -/
def execRcr (a : Addr) (fill : List Byte) (s : State) : Host.Outcome State Fault Refusal :=
  .next (transact (encode (.rcr a fill)) (rcrOut a fill s) s)

/-- WCR, write control register (R96, R97). -/
def execWcr (a : Addr) (v : Byte) (s : State) : Host.Outcome State Fault Refusal :=
  let tx := encode (.wcr a v)
  .next (transact tx (writeOut (devWrite s.cfg s.draws a v s.dev) tx s) s)

/-- The device side of a bit-field operation: refused on the MAC/MII class, else one atomic read-modify-write
that writes `v` (R101, R103). DESIGN CHOICE: the write happens also where it changes no bit, with all that R91 gives a
write, so a mask of 0 on a byte of ERXST still moves ERXWRPT to ERXST; R100 and R102 say it changes nothing (log 36). -/
def bitFieldOut (a : Addr) (v : Byte) (tx : List Byte) (s : State) : DevOut :=
  if devMacmii s.cfg (bsel s.dev.regs) a then noEffect .bitopMacmii tx s
  else writeOut (devWrite s.cfg s.draws a v s.dev) tx s

/-- BFS, bit-field set: the logical OR into the register (R100, R101). -/
def execBfs (a : Addr) (m : Byte) (s : State) : Host.Outcome State Fault Refusal :=
  let tx := encode (.bfs a m)
  .next (transact tx (bitFieldOut a (devStored s.dev.regs a ||| m) tx s) s)

/-- BFC, bit-field clear: the logical AND of the inverse into the register (R102, R103). -/
def execBfc (a : Addr) (m : Byte) (s : State) : Host.Outcome State Fault Refusal :=
  let tx := encode (.bfc a m)
  .next (transact tx (bitFieldOut a (devStored s.dev.regs a &&& ~~~m) tx s) s)

end Sys2Proof.Machine
end

