-- ==== Sys2Proof/Machine/System.lean ====
section
/-! DEFINITION. System reset: SRC, and the settling delay that follows it (R104, R105, R148); the two resets (R171). -/

namespace Sys2Proof.Machine

/-- The device side of SRC: the device takes its reset state, whatever state it is in, power save too (R105). -/
def srcOut (tx : List Byte) (s : State) : DevOut := ⟨resetDevice s.cfg s.draws, [], anyResponse tx s⟩

/-- x[SETTLING] <- true, reached only when the frame raised no BusFault (R104), and the device's `settling` (R105).
DESIGN CHOICE: after a frame the bus failed both are as they were, though the device may have taken the reset and be
settling: how much arrived is unknown (R156, log 19). -/
def beginSettling (before after : State) : State :=
  if before.bus.isSome then after
  else { after with blk := { after.blk with settling := true }, devSettling := true }

/-- SRC, system reset: the frame, and the settling delay begins (R104, R105).
The delay itself is the sequencer's next step, which sends no frame (R148). -/
def execSrc (s : State) : Host.Outcome State Fault Refusal :=
  let tx := encode .src
  .next (beginSettling s (transact tx (srcOut tx s) s))

/-- `Settle()`: the settling delay has elapsed, for the block and for the device (R105, R148). -/
def settle (s : State) : State := { s with blk := { s.blk with settling := false }, devSettling := false }

/-! ## The two resets (R171) -/

/-- Block reset: the block registers in the state of R47, no frame, and the device left alone (R171). The latches are
`any`, the buffer and the out-parameter are the Caller's; it begins a new run, so x[FAULTS] and x[LOG] are empty
(R26, R28, log 25). -/
def blockReset (s : State) : State :=
  { s with
    blk := { s.blk with
      cs := false
      op := none
      physt := .idle
      rxst := .idle
      pollcnt := 0
      settling := false
      err := .ok
      faults := []
      log := []
      npp := Config.freeWord s.draws
      flen := Config.freeWord (s.draws + 1)
      rsv := Config.freeWord (s.draws + 2) }
    draws := s.draws + 3 }

/-- Device reset at power-on of the device: DEV_RESET, and the block's registers left alone (R171, R173).
DESIGN CHOICE: it begins no settling delay and ends none; the source does not say whether a power-on needs one
(91_not_in_source.md N7, log 25). -/
def powerOn (s : State) : State :=
  { s with dev := resetDevice s.cfg s.draws, draws := s.draws + 1 }

end Sys2Proof.Machine
end

