-- ==== Sys2Proof/Machine/Dispatch.lean ====
section
/-! DEFINITION. The meaning of each transaction, one arm per constructor of Instr. -/

namespace Sys2Proof.Machine

def exec (i : Instr) (s : State) : Host.Outcome State Fault Refusal :=
  match i with
  | .rcr addr fill => Sys2Proof.Machine.execRcr addr fill s
  | .rbm fill => Sys2Proof.Machine.execRbm fill s
  | .wcr addr data => Sys2Proof.Machine.execWcr addr data s
  | .wbm data => Sys2Proof.Machine.execWbm data s
  | .bfs addr mask => Sys2Proof.Machine.execBfs addr mask s
  | .bfc addr mask => Sys2Proof.Machine.execBfc addr mask s
  | .src => Sys2Proof.Machine.execSrc s

end Sys2Proof.Machine
end

