-- ==== Sys2Proof/Machine/Sequencer.lean ====
section
/-! DEFINITION. The block sequencer: each operation's expansion into steps, the frame a step sends, and what the block
does with the response (R18, R82 to R87, R106 to R153). -/

namespace Sys2Proof.Machine

/-- Which half of a 16-bit value. -/
inductive Half where
  | low | high
  deriving DecidableEq, Repr

/-- The condition that ends a busy-wait (R115). -/
inductive Until where
  | clear | set
  deriving DecidableEq, Repr

/-- Where the byte of a read goes. -/
inductive Sink where
  /-- It is the operation's result (R92, R108). -/
  | result
  /-- It is the low byte of a pair (R112). -/
  | pairLow
  /-- It is the high byte of a pair, which completes the result (R112). -/
  | pairHigh
  deriving DecidableEq, Repr

/-- What one step of an operation does; it sends at most one frame (R18). -/
inductive Act where
  /-- Send a fixed transaction; the response is ignored. -/
  | send (i : Instr)
  /-- Read a control register. -/
  | read (a : Addr) (dummy : Bool) (sink : Sink)
  /-- Read `n` bytes of buffer memory for the Caller (R94). -/
  | readBytes (n : Nat)
  /-- The read that closes one poll of `pollFlag(id, mask, until)` (R115). -/
  | poll (id mask : Byte) (cond : Until)
  /-- Step 4 of receivePacket (R130). -/
  | header
  /-- Step 5 of receivePacket (R131). -/
  | body
  /-- Write one byte of x[NPP] to a register (R132, R133). -/
  | writeNpp (a : Addr) (half : Half)
  /-- The settling delay, which sends no frame (R148). -/
  | settle
  deriving DecidableEq, Repr

/-- A step with the states the two state machines have in it (R117, R125). -/
structure Micro where
  act : Act
  physt : PhySt := .idle
  rxst : RxSt := .idle
  /-- A busy-wait begins here: x[POLLCNT] is set to 0 on the way in (R115, log 26). -/
  pollStart : Bool := false
  deriving DecidableEq, Repr

/-- A list of steps in one state of the PHY state machine (R117). -/
def inPhySt (p : PhySt) (ms : List Micro) : List Micro := ms.map fun m => { m with physt := p }

/-- A list of steps in one state of the receive controller (R125). -/
def inRxSt (r : RxSt) (ms : List Micro) : List Micro := ms.map fun m => { m with rxst := r }

/-- The bank-switch sequence: clear both bank-select bits, set those of the identifier's bank (R107). -/
def bankSwitch (g : RegMap) (id : Byte) : List Micro :=
  [ { act := .send (.bfc (idAddr g.econ1) bselMask) },
    { act := .send (.bfs (idAddr g.econ1) ((idBank id).setWidth 8)) } ]

/-- `RDREG id`, its byte going to `sink` (R82, R108). -/
def readReg (g : RegMap) (id : Byte) (sink : Sink) : List Micro :=
  bankSwitch g id ++ [{ act := .read (idAddr id) (idMac id) sink }]

/-- `WRREG id, v` (R82, R109). -/
def writeReg (g : RegMap) (id v : Byte) : List Micro :=
  bankSwitch g id ++ [{ act := .send (.wcr (idAddr id) v) }]

/-- `RDPAIR id` (R83, R112). -/
def readPair (g : RegMap) (id : Byte) : List Micro :=
  readReg g id .pairLow ++ readReg g (pairHigh id) .pairHigh

/-- `WRPAIR id, v` (R83, R113). -/
def writePair (g : RegMap) (id : Byte) (v : Word) : List Micro :=
  writeReg g id (lo8 v) ++ writeReg g (pairHigh id) (hi8 v)

/-- `WRPAIR id, x[NPP]` (R132, R133). -/
def writeNppPair (g : RegMap) (id : Byte) : List Micro :=
  bankSwitch g id ++ [{ act := .writeNpp (idAddr id) .low }]
    ++ bankSwitch g (pairHigh id) ++ [{ act := .writeNpp (idAddr (pairHigh id)) .high }]

/-- How many steps one poll of a busy-wait takes (R115). -/
def pollSteps : Nat := 3

/-- `pollFlag(id, mask, until)`: each poll is a readRegister (R115). -/
def pollFlag (g : RegMap) (id mask : Byte) (cond : Until) : List Micro :=
  [ { act := .send (.bfc (idAddr g.econ1) bselMask), pollStart := true },
    { act := .send (.bfs (idAddr g.econ1) ((idBank id).setWidth 8)) },
    { act := .poll id mask cond } ]

/-- The expansion of readPhy (R84, R120). -/
def readPhySteps (g : RegMap) (p : Byte) : List Micro :=
  inPhySt .requesting (writeReg g g.miregadr p ++ writeReg g g.micmd miirdCommand) ++
  inPhySt .busyPolling
    (pollFlag g g.mistat busyMask .clear ++ writeReg g g.micmd 0x00 ++ readPair g g.mirdl)

/-- The expansion of writePhy (R84, R121). -/
def writePhySteps (g : RegMap) (p : Byte) (v : Word) : List Micro :=
  inPhySt .requesting (writeReg g g.miregadr p ++ writePair g g.miwrl v) ++
  inPhySt .busyPolling (pollFlag g g.mistat busyMask .clear)

/-- The expansion of receivePacket, one state of the receive controller per source step (R85, R125, R126). -/
def receiveSteps (g : RegMap) : List Micro :=
  inRxSt .enable [{ act := .send (.bfs (idAddr g.econ1) rxenMask) }] ++
  inRxSt .waitPkt (pollFlag g g.eir pktifMask .set) ++
  inRxSt .disable [{ act := .send (.bfc (idAddr g.econ1) rxenMask) }] ++
  inRxSt .header [{ act := .header }] ++
  inRxSt .body [{ act := .body }] ++
  inRxSt .wbRdpt (writeNppPair g g.erxrdptl) ++
  inRxSt .wbErdpt (writeNppPair g g.erdptl)

/-- The two bytes of transmit's frame-length field (R146). -/
def lenBytes (o : ByteOrder) (v : Word) : List Byte :=
  match o with
  | .be => [hi8 v, lo8 v]
  | .le => [lo8 v, hi8 v]

/-- The expansion of sendPacket: five frames (R86, R146). -/
def sendSteps (c : Config) (dst : Mac) (payload : List Byte) : List Micro :=
  [ { act := .send (.wbm [0x00]) },
    { act := .send (.wbm dst.toList) },
    { act := .send (.wbm c.srcMac.toList) },
    { act := .send (.wbm (lenBytes c.txLenOrder c.frameLen)) },
    { act := .send (.wbm payload) } ]

/-- The expansion of initialize, phases 1 to 8 (R87, R152). -/
def initSteps (g : RegMap) (i : InitCfg) : List Micro :=
  writePair g g.erxstl (i.rxStart.setWidth 16) ++
  writePair g g.erxndl (i.rxEnd.setWidth 16) ++
  writePair g g.erxrdptl (i.rxRdpt.setWidth 16) ++
  writeReg g g.erxfcon i.filter ++
  pollFlag g g.estat clkrdyMask .set ++
  i.macCfg.flatMap (fun e => writeReg g e.1 e.2) ++
  (i.macAddrId.toList.zip i.localMac.toList).flatMap (fun e => writeReg g e.1 e.2) ++
  writePhySteps g i.phyCfg0.1 i.phyCfg0.2 ++
  writePhySteps g i.phyCfg1.1 i.phyCfg1.2 ++
  writePair g g.ewrptl 0x0000 ++
  writePair g g.etxstl 0x0000 ++
  writeReg g g.eie i.ie

/-- The expansion of an operation (R82 to R87); a single transaction is one step, a system reset two (R92 to R104). -/
def expansion (c : Config) : Op → List Micro
  | .readControlRegister a dummy => [{ act := .read (idAddr a) dummy .result }]
  | .readBufferMemory n => [{ act := .readBytes n }]
  | .writeControlRegister a v => [{ act := .send (.wcr (idAddr a) v) }]
  | .writeBufferMemory bs => [{ act := .send (.wbm bs) }]
  | .bitFieldSet a m => [{ act := .send (.bfs (idAddr a) m) }]
  | .bitFieldClear a m => [{ act := .send (.bfc (idAddr a) m) }]
  | .systemReset => [{ act := .send .src }, { act := .settle }]
  | .readRegister id => readReg c.regmap id .result
  | .writeRegister id v => writeReg c.regmap id v
  | .readRegisterPair id => readPair c.regmap id
  | .writeRegisterPair id v => writePair c.regmap id v
  | .readPhy p => readPhySteps c.regmap p
  | .writePhy p v => writePhySteps c.regmap p v
  | .receivePacket => receiveSteps c.regmap
  | .sendPacket d pl => sendSteps c d pl
  | .init i => initSteps c.regmap i

/-- The step the block stands at; none while it is Idle (R18). -/
def currentMicro (s : State) : Option Micro :=
  match s.blk.op with
  | none => none
  | some o => (expansion s.cfg o)[s.blk.step]?

/-- The step of a fetch of N data bytes: N fillers (R94). -/
def fillers (n : Nat) : List Byte := List.replicate n Config.FILLER

/-- The half of a 16-bit value. -/
def halfOf (v : Word) : Half → Byte
  | .low => lo8 v
  | .high => hi8 v

/-- The transaction a step sends; none for the settling delay, and for a body longer than the buffer (R135). -/
def actInstr (s : State) : Act → Option Instr
  | .send i => some i
  | .read a dummy _ => some (.rcr a (rcrFill dummy))
  | .readBytes n => some (.rbm (fillers n))
  | .poll id _ _ => some (.rcr (idAddr id) (rcrFill (idMac id)))
  | .header => some (.rbm (fillers Config.HDR_LEN))
  | .body => if s.blk.flen.toNat ≤ s.cfg.bufCap then some (.rbm (fillers s.blk.flen.toNat)) else none
  | .writeNpp a h => some (.wcr a (halfOf s.blk.npp h))
  | .settle => none

/-- The transaction the block is about to send. -/
def blockInstr (s : State) : Option Instr := (currentMicro s).bind fun m => actInstr s m.act

/-- The frame the block is about to send, as bytes (R69). -/
def blockFrame (s : State) : Option (List Byte) := (blockInstr s).map encode

/-- x[STEP] <- n, and the state machines in the states that step has; `entering` a busy-wait sets x[POLLCNT] to 0
(R18, R115, R117, R125). DESIGN CHOICE: one move goes to the state of the next step, so between the two PHY writes of
initialize x[PHYST] goes from BusyPolling straight to Requesting, with no state at Idle between them (log 34). -/
def goto (o : Op) (n : Nat) (entering : Bool) (s : State) : State :=
  match (expansion s.cfg o)[n]? with
  | none => { s with blk := { s.blk with step := n } }
  | some m =>
    { s with blk := { s.blk with
        step := n
        physt := m.physt
        rxst := m.rxst
        pollcnt := if entering ∧ m.pollStart then 0 else s.blk.pollcnt } }

/-- After a step: the next one, or, after the last, the return of `v` to the Caller (R18). -/
def advance (o : Op) (v : Value) (s : State) : State :=
  if s.blk.step + 1 < (expansion s.cfg o).length then goto o (s.blk.step + 1) true s else finish v s

/-- Bytes stored over the front of the caller's buffer, whose length does not change (R130, R131). -/
def overlay : List Byte → List Byte → List Byte
  | _ :: buf, b :: bs => b :: overlay buf bs
  | buf, _ => buf

/-- The data bytes of a response (R74, R94). -/
def responseData (s : State) : List Byte := s.blk.rx.drop 1

/-- The register value of an RCR response: the last byte, `rx[1]` or with the dummy byte `rx[2]` (R92). -/
def responseByte (s : State) : Byte := s.blk.rx.getLast?.getD 0

/-- Step 4's latches: the header bytes in the buffer, x[NPP], x[FLEN], x[RSV] and the out-parameter (R130). -/
def latchHeader (h : List Byte) (s : State) : State :=
  let npp := le16 (h.getD 0 0) (h.getD 1 0)
  { s with blk := { s.blk with
      buf := overlay s.blk.buf h
      npp := npp
      flen := le16 (h.getD 2 0) (h.getD 3 0)
      rsv := le16 (h.getD 4 0) (h.getD 5 0)
      nppOut := npp } }

/-- Whether a polled byte meets the condition of the busy-wait (R115). -/
def pollMet (cond : Until) (value mask : Byte) : Bool :=
  match cond with
  | .clear => value &&& mask == 0
  | .set => value &&& mask != 0

/-- Whether POLL_LIMIT is reached (R115, R157). -/
def limitReached (c : Config) (polls : Nat) : Bool :=
  match c.pollLimit with
  | none => false
  | some n => decide (n ≤ polls)

/-- A poll that found the condition unmet: count it, time out, or loop back to the poll's first step (R115). -/
def pollAgain (o : Op) (id : Byte) (s : State) : State :=
  let s' := { s with blk := { s.blk with pollcnt := s.blk.pollcnt + 1 } }
  if limitReached s.cfg (s.blk.pollcnt + 1) then raise (.timeout id) s'
  else goto o (s.blk.step + 1 - pollSteps) false s'

/-- What the block does with the response to the frame of a step. -/
def consume (o : Op) (act : Act) (s : State) : State :=
  match act with
  | .send _ => advance o .unit s
  | .read _ _ .result => advance o (.byte (responseByte s)) s
  | .read _ _ .pairLow => advance o .unit { s with blk := { s.blk with low := responseByte s } }
  | .read _ _ .pairHigh => advance o (.word (le16 s.blk.low (responseByte s))) s
  | .readBytes _ => advance o (.bytes (responseData s)) s
  | .poll id mask cond => if pollMet cond (responseByte s) mask then advance o .unit s else pollAgain o id s
  | .header => advance o .unit (latchHeader (responseData s) s)
  | .body => advance o .unit { s with blk := { s.blk with buf := overlay s.blk.buf (responseData s) } }
  | .writeNpp _ _ => advance o (.packet s.blk.flen s.blk.npp s.blk.rsv) s
  | .settle => advance o .unit (settle s)

/-- After the block's frame: a BusFault has ended the operation, or the response is consumed (R155, R156). -/
def afterFrame (s : State) : State :=
  match s.blk.op, currentMicro s with
  | some o, some m => consume o m.act s
  | _, _ => s

/-- F_RX_OVERFLOW: recorded, and the operation ends; x[ERR] is left open (R135, log 13). -/
def rxOverflow (s : State) : State :=
  let s' := recordFault .rxOverflow s
  { s' with
    blk := { s'.blk with err := Config.freeErr s.draws, physt := .idle, rxst := .idle, op := none, ret := .none }
    draws := s.draws + 1 }

/-- A move of the block that sends no frame: the settling delay, a body that does not fit, or, while Idle, waiting for
a request, during which a settling delay also elapses (R135, R148, R172, log 12). -/
def blockQuiet (s : State) : State :=
  match s.blk.op, currentMicro s with
  | some o, some m =>
    match m.act with
    | .settle => consume o .settle s
    | _ => rxOverflow s
  | some _, none => s
  | none, _ => if s.settling then settle s else s

/-- The Caller requests an operation: F_REENTRY while another runs, InvalidRegister if a check fails, else it starts
(R106, R158, R160, R162). -/
def request (o : Op) (s : State) : State :=
  match s.blk.op with
  | some _ => recordFault .reentry s
  | none =>
    match firstFailing s.cfg o with
    | some k => raise (.invalidRegister k.offending) s
    | none => goto o 0 true { s with blk := { s.blk with op := some o } }

end Sys2Proof.Machine
end

