-- ==== Sys2Proof/Machine/Fetch.lean ====
section
/-! DEFINITION. A frame on the bus runs the transaction it decodes to, and each event of the agenda has its move. -/

namespace Sys2Proof.Machine

/-- A frame's bytes reach the device: the transaction they decode to runs; a rejected frame has no effect and is recorded
as a model fault (R69, R78, R80). No byte at all is no frame. -/
def runFrame (tx : List Byte) (s : State) : Host.Outcome State Fault Refusal :=
  match decode tx with
  | .ok i => exec i s
  | .rejected .empty => .next s
  | .rejected .reservedOpcode => .next (transact tx (noEffect .reservedOpcode tx s) s)
  | .rejected .frameLength => .next (transact tx (noEffect .frameLength tx s) s)

/-- What follows a next state. -/
def thenNext (o : Host.Outcome State Fault Refusal) (f : State → State) : Host.Outcome State Fault Refusal :=
  match o with
  | .next s => .next (f s)
  | .fault r => .fault r
  | .refused r => .refused r

/-- The block's move: it sends its next frame and consumes the response, or moves without one (R18, R172). -/
def blockStep (s : State) : Host.Outcome State Fault Refusal :=
  match blockFrame s with
  | some tx => thenNext (runFrame tx s) afterFrame
  | none => .next (blockQuiet s)

/-- The Caller stores a byte in its own buffer (R27). DESIGN CHOICE: it may do so between any two frames, also while a
receivePacket that fills the buffer runs; R27 and R49 do not say when (log 5). -/
def callerStore (index : Nat) (v : Byte) (s : State) : State :=
  { s with blk := { s.blk with buf := s.blk.buf.set index v } }

/-- A device-internal agent's step; in a device that dozes its effect is `any` (R64, R170, log 37). -/
def onDevice (f : Device → Device) (s : State) : State :=
  { s with dev := if s.dozing then anyDevice s.draws else f s.dev, draws := s.draws + 1 }

/-- The move an event of the agenda asks for (R8, R64). A power-on of the device begins no settling delay (log 25). -/
def eventStep (e : Event) (s : State) : Host.Outcome State Fault Refusal :=
  match e with
  | .block => blockStep s
  | .request o => .next (request o s)
  | .callerStore index v => .next (callerStore index v s)
  | .busFail received => .next { s with bus := some received }
  | .frame tx => runFrame tx s
  | .phy => .next (onDevice phyComplete s)
  | .clock => .next (onDevice clockReady s)
  | .rx f status => .next (onDevice (rxArrive s.cfg s.draws f status) s)
  | .powerOn => .next (powerOn s)
  | .blockReset => .next (blockReset s)

/-- One step: the next event of the agenda, or with none left the block's move (R64, log 1). -/
def stepOnce (s : State) : Host.Outcome State Fault Refusal :=
  match s.agenda with
  | [] => blockStep s
  | e :: rest => eventStep e { s with agenda := rest }

end Sys2Proof.Machine
end

