-- ==== Sys2Proof/Machine/Step.lean ====
section
/-! DEFINITION. One step of the machine, and a table word placed where the step takes its next frame. -/

namespace Sys2Proof.Machine

/-- One step: one move of one agent (R8, R64). -/
def step (s : State) : Host.Outcome State Fault Refusal := stepOnce s

/-- The state in which the very next step puts the table word's frame on the bus (log 2). -/
def State.withFetchWord (s : State) (nbits w : Nat) : State := { s with agenda := [.frame (tableFrame nbits w)] }

end Sys2Proof.Machine
end

