-- ==== Sys2Proof/Safety.lean ====
section
/-! DEFINITION. Runs, and what counts as a well-formed and as a safe state: the terms the statements use. -/

namespace Sys2Proof.Machine

/-- `n` steps of the machine. -/
def run : Nat → State → Host.Outcome State Fault Refusal
  | 0, s => .next s
  | n + 1, s =>
    match step s with
    | .next t => run n t
    | .fault r => .fault r
    | .refused r => .refused r

/-- A claim may be proven about a run only while it holds no model fault (R161). -/
abbrev State.Safe (s : State) : Prop := s.blk.faults = []

/-- Bits a register does not have hold 0, so that they read 0 (R40, R42, R44). -/
abbrev reservedZero (r : DevRegs) : Prop :=
  r.econ2 &&& ~~~econ2Bits = 0 ∧ r.eir &&& ~~~eirBits = 0 ∧ r.micmd &&& ~~~micmdBits = 0

/-- Where the block stands: Idle with both state machines Idle, or at a step of its operation's expansion with the state
machines in the states of that step (R18, R117, R125). -/
def State.Placed (s : State) : Prop :=
  match s.blk.op with
  | none => s.blk.physt = .idle ∧ s.blk.rxst = .idle
  | some o => ∃ m, (expansion s.cfg o)[s.blk.step]? = some m ∧ s.blk.physt = m.physt ∧ s.blk.rxst = m.rxst

/-- The invariant of the machine between two steps: memory in canonical form and inside MEM_SIZE (R30, R50), absent
register bits 0 (R40, R42, R44), chip select deasserted (R17), the caller's buffer of BUF_CAP bytes (R27), the fault set
without repeats (R161), and the block in its place. -/
structure State.Inv (s : State) : Prop where
  mem_wf : Memory.wf s.dev.mem
  reserved : reservedZero s.dev.regs
  image_reserved : reservedZero s.cfg.devReset
  cs_low : s.blk.cs = false
  buf_length : s.blk.buf.length = s.cfg.bufCap
  faults_nodup : s.blk.faults.Nodup
  placed : s.Placed

/-- An event outside the block's own run: a frame from outside its sequences (R161), or a block reset, which may leave the
device settling (R171). -/
def Event.foreign : Event → Bool
  | .block => false
  | .request _ => false
  | .callerStore _ _ => false
  | .busFail _ => false
  | .frame _ => true
  | .phy => false
  | .clock => false
  | .rx _ _ => false
  | .powerOn => false
  | .blockReset => true

/-- The settling delay runs only inside a system reset, after its frame (R65, R148).
It holds of runs in which every frame is the block's own and no block reset falls. -/
structure State.OwnFrames (s : State) : Prop where
  no_foreign : ∀ e ∈ s.agenda, e.foreign = false
  settling_inside : s.settling = true → s.blk.op = some .systemReset ∧ s.blk.step = 1

/-- The bus gets the next frame through and neither side is settling: when SRC executes normally, in power save too
(R14, R88, R105). -/
abbrev State.BusFree (s : State) : Prop := s.bus = none ∧ s.settling = false

/-- The bus gets the next frame through, neither side is settling and the device is not in power save: when a transaction
executes normally (R14, R88, R105, R170). -/
abbrev State.BusReady (s : State) : Prop := s.bus = none ∧ s.settling = false ∧ pwrsv s.dev.regs = false

/-- Nothing is left to happen but the block's own moves. -/
abbrev State.Quiet (s : State) : Prop := s.agenda = [] ∧ s.BusReady

/-! ## Fair schedules (R34, R123) -/

/-- An endless schedule: the agent's move at each instant. -/
abbrev Schedule := Nat → Event

/-- The state before the n-th move of a schedule: each step has that instant's move as its whole agenda. -/
def scheduled (σ : Schedule) (s : State) : Nat → State
  | 0 => s
  | n + 1 =>
    match step { scheduled σ s n with agenda := [σ n] } with
    | .next t => t
    | .fault _ => scheduled σ s n
    | .refused _ => scheduled σ s n

/-- The clock agent is fair: from every instant on it eventually steps (R34). -/
abbrev FairClock (σ : Schedule) : Prop := ∀ n, ∃ m, n ≤ m ∧ σ m = .clock

/-- The PHY engine is weakly fair: from every instant on, an operation in flight comes to an instant at which the engine
steps or none is in flight (R123). -/
abbrev FairPhy (σ : Schedule) (s : State) : Prop :=
  ∀ n, ∃ m, n ≤ m ∧ (σ m = .phy ∨ (scheduled σ s m).dev.phyop = .none)

end Sys2Proof.Machine
end

