-- ==== Sys2Proof/Certificates/Slice0/Obligations.lean ====
section
/-! DEFINITION. The statements about the block and its reference device, from the numbered rules of spec/.
The rules of the device side carry the spec's own mark "[from general knowledge, not in source]" (log 7), and many rules of the
block side "[decision: see 92_eei_decisions.md]" or "[derived]": OBLIGATIONS.json says of each statement which. -/

open Sys2Proof Sys2Proof.Machine

/-! ## Encoding (30_encoding.md) -/

/-- Decoding the frame of any well-formed transaction gives it back (R69 to R74, R80). -/
def Obligations.DecodeEncodeRoundTrip : Prop :=
  ∀ i : Instr, i.WellFormed → decode (encode i) = .ok i

/-- A frame that decodes is the encoding of a well-formed transaction, and of no other (R71, R80). -/
def Obligations.DecodedFrameIsItsEncoding : Prop :=
  ∀ (tx : List Byte) (i : Instr), decode tx = .ok i →
    i.WellFormed ∧ encode i = tx ∧ ∀ j : Instr, j.WellFormed → encode j = tx → j = i

/-- The opcode bytes with no meaning are those of R78's ranges, 125 of them. -/
def Obligations.UnassignedOpcodesAreRejected : Prop :=
  (∀ (b : Byte) (payload : List Byte), decode (b :: payload) = .rejected .reservedOpcode ↔
    (0x20 ≤ b ∧ b ≤ 0x39) ∨ (0x3B ≤ b ∧ b ≤ 0x3F) ∨ (0x60 ≤ b ∧ b ≤ 0x79) ∨ (0x7B ≤ b ∧ b ≤ 0x7F) ∨
      (0xC0 ≤ b ∧ b ≤ 0xDF) ∨ (0xE0 ≤ b ∧ b ≤ 0xFE)) ∧
  ((List.range 256).filter fun n => opcodeOf (BitVec.ofNat 8 n) = none).length = 125

/-- Frames written out from the opcode map decode to the transactions they stand for (R71, 95_test_vectors.md). -/
def Obligations.SpecFramesDecode : Prop :=
  decode [0x1C, 0x00] = .ok (.rcr 0x1C [0x00]) ∧
  decode [0x0A, 0x00, 0x00] = .ok (.rcr 0x0A [0x00, 0x00]) ∧
  decode [0x3A, 0x00, 0x00] = .ok (.rbm [0x00, 0x00]) ∧
  decode [0x4C, 0x06] = .ok (.wcr 0x0C 0x06) ∧
  decode [0x7A, 0xAA, 0xBB] = .ok (.wbm [0xAA, 0xBB]) ∧
  decode [0x9F, 0x04] = .ok (.bfs 0x1F 0x04) ∧
  decode [0xBF, 0x03] = .ok (.bfc 0x1F 0x03) ∧
  decode [0xFF] = .ok .src ∧
  decode [0x3B, 0x00] = .rejected .reservedOpcode ∧
  decode [0x4C] = .rejected .frameLength

/-- The address decoder: A, B and M of every identifier, and the bijection with their triples (R75, R76). -/
def Obligations.IdentifierDecodesToOneTriple : Prop :=
  (∀ id : Byte, (idAddr id).toNat = id.toNat % 32 ∧ (idBank id).toNat = id.toNat / 32 % 4 ∧
    (idMac id = true ↔ 128 ≤ id.toNat) ∧ identifier (idMac id) (idBank id) (idAddr id) = id) ∧
  (∀ (m : Bool) (b : Bank) (a : Addr), idMac (identifier m b a) = m ∧ idBank (identifier m b a) = b ∧
    idAddr (identifier m b a) = a)

/-! ## One step -/

/-- A step runs the transaction its frame decodes to: a frame from outside as it is, the block's own followed by what the
block does with the response. -/
def Obligations.StepRunsTheDecodedFrame : Prop :=
  (∀ (s : State) (tx : List Byte) (rest : List Event) (i : Instr), s.agenda = .frame tx :: rest → decode tx = .ok i →
    step s = exec i { s with agenda := rest }) ∧
  (∀ (s : State) (tx : List Byte) (i : Instr), s.agenda = [] → blockFrame s = some tx → decode tx = .ok i →
    ∃ t, exec i s = .next t ∧ step s = .next (afterFrame t)) ∧
  (∀ (s : State) (tx : List Byte) (rest : List Event) (i : Instr), s.agenda = .block :: rest →
    blockFrame { s with agenda := rest } = some tx → decode tx = .ok i →
    ∃ t, exec i { s with agenda := rest } = .next t ∧ step s = .next (afterFrame t))

/-- No step stops the machine, and no step changes the parameters (R9, R161). -/
def Obligations.StepNeverStops : Prop :=
  ∀ s : State, ∃ t, step s = .next t ∧ t.cfg = s.cfg

/-- A step keeps every model fault recorded (R161), but for a block reset, which begins a new run with none (R26, R47).
That a block reset may fall in the middle of a run is the model's choice (log 25). -/
def Obligations.ModelFaultsAreNeverCleared : Prop :=
  ∀ s t : State, (∀ rest, s.agenda ≠ .blockReset :: rest) → step s = .next t → ∀ f ∈ s.blk.faults, f ∈ t.blk.faults

/-- A step adds at most one frame to the bus log and removes none (R14, R18, R28), but for a block reset, which begins a
new run with an empty log (R28, R47; log 25). -/
def Obligations.LogGrowsByAtMostOneFrame : Prop :=
  ∀ s t : State, (∀ rest, s.agenda ≠ .blockReset :: rest) → step s = .next t →
    t.blk.log = s.blk.log ∨ ∃ f : Frame, f.tx ≠ [] ∧ f.rx.length = f.tx.length ∧ t.blk.log = s.blk.log ++ [f]

/-- The invariant of the machine holds after a step of a state that meets it.
That x[PHYST] is the state of the step the block stands at, and so never Idle between the two PHY writes of initialize, is
the model's choice (log 34); R117 passes through Idle there. -/
def Obligations.StepKeepsInvariant : Prop :=
  ∀ s t : State, s.Inv → step s = .next t → t.Inv

/-- The invariant holds at reset. -/
def Obligations.ResetMeetsInvariant : Prop := State.reset.Inv

/-- The block after block reset and the device after power-on (R47, R48, R171); what the spec leaves `any` is not here. -/
def Obligations.ResetValues : Prop :=
  let b := State.reset.blk
  let d := State.reset.dev
  (b.cs = false ∧ b.op = none ∧ b.physt = .idle ∧ b.rxst = .idle ∧ b.pollcnt = 0 ∧ b.settling = false ∧ b.err = .ok ∧
    b.faults = [] ∧ b.log = []) ∧
  (d.regs.erdpt = 0x05FA ∧ d.regs.ewrpt = 0 ∧ d.regs.etxst = 0 ∧ d.regs.etxnd = 0 ∧ d.regs.erxst = 0x05FA ∧
    d.regs.erxnd = 0x1FFF ∧ d.regs.erxrdpt = 0x05FA ∧ d.regs.erxwrpt = 0) ∧
  (d.regs.econ1 = 0x00 ∧ d.regs.econ2 = 0x80 ∧ d.regs.eir = 0x00 ∧ d.regs.eie = 0x00 ∧ d.regs.epktcnt = 0x00 ∧
    d.regs.micmd = 0 ∧ d.regs.miregadr = 0 ∧ d.regs.miwrl = 0 ∧ d.regs.miwrh = 0 ∧ d.regs.mirdl = 0 ∧ d.regs.mirdh = 0) ∧
  (∀ k : Fin 128, d.regs.plain[k] = if k = 56 then 0xA1 else if k = 75 then 0x06 else 0x00) ∧
  d.phyop = .none ∧ d.clkrdy = false ∧ d.mem = []

/-! ## Every transaction (R14, R88, R155, R156) -/

/-- Every transaction, in every state, in power save too (R170): a frame while x[SETTLING] is true, or while the device settles, records F_SETTLE
(R88, R105, R161); one frame is logged, with as many
bytes received as sent; chip select ends deasserted, also when the bus fails the frame, which raises BusFault; and no block
register is written but x[LOG], for SRC x[SETTLING], and by a failure what the raise writes (R88). The model faults
recorded are F_SETTLE and those of the device side.
That the two settling states are separate storages is the model's reading (log 11). That a frame while either is true still
goes out and is logged, and records F_SETTLE also when the bus fails it, is the model's choice (log 23); so is the pending report of the bus, which the frame consumes (log 19). -/
def Obligations.TransactionWritesOnlyLogAndSettling : Prop :=
  ∀ (i : Instr) (s : State), ∃ t, exec i s = .next t ∧
    (s.blk.settling = true ∨ s.devSettling = true → .settle ∈ t.blk.faults) ∧
    (t.blk.log = s.blk.log ++ [⟨encode i, t.blk.rx⟩] ∧ t.blk.rx.length = (encode i).length ∧ t.blk.cs = false) ∧
    (s.bus ≠ none → t.blk.err = .busFault) ∧
    (t.blk.step = s.blk.step ∧ t.blk.npp = s.blk.npp ∧ t.blk.flen = s.blk.flen ∧ t.blk.rsv = s.blk.rsv ∧
      t.blk.pollcnt = s.blk.pollcnt ∧ t.blk.buf = s.blk.buf ∧ t.blk.nppOut = s.blk.nppOut ∧ t.blk.low = s.blk.low) ∧
    (s.bus = none → t.blk.op = s.blk.op ∧ t.blk.physt = s.blk.physt ∧ t.blk.rxst = s.blk.rxst ∧
      t.blk.err = s.blk.err ∧ t.blk.ret = s.blk.ret) ∧
    (i ≠ .src → t.blk.settling = s.blk.settling) ∧ (i = .src → s.bus = none → t.blk.settling = true) ∧
    (∀ f ∈ s.blk.faults, f ∈ t.blk.faults) ∧
    (∀ f ∈ t.blk.faults, f ∈ s.blk.faults ∨ (f = .settle ∧ (s.blk.settling = true ∨ s.devSettling = true)) ∨
      f = .frameLength ∨ f = .bitopMacmii ∨ f = .phyOverlap) ∧
    t.cfg = s.cfg ∧ t.bus = none ∧ t.agenda = s.agenda

/-- A frame the bus fails raises BusFault: chip select is released, the frame is logged with the bytes received, the
operation ends, the latches and the buffer keep their values, nothing is retried (R14, R155, R156).
That it leaves both settling states as they were, and records no model fault of the device side, is the model's choice
(log 19); so is it that a frame from outside the block's sequences raises BusFault in the block too (log 16). -/
def Obligations.FailedFrameRaisesBusFault : Prop :=
  ∀ (i : Instr) (s : State) (received : List Byte), s.bus = some received → ∃ t, exec i s = .next t ∧
    t.blk.err = .busFault ∧ t.blk.op = none ∧ t.blk.physt = .idle ∧ t.blk.rxst = .idle ∧ t.blk.cs = false ∧
    t.bus = none ∧ t.blk.settling = s.blk.settling ∧ t.devSettling = s.devSettling ∧
    (∃ rx, rx.length = (encode i).length ∧ (∀ k < rx.length, k < received.length → rx[k]? = received[k]?) ∧
      t.blk.log = s.blk.log ++ [⟨encode i, rx⟩]) ∧
    t.blk.npp = s.blk.npp ∧ t.blk.flen = s.blk.flen ∧ t.blk.rsv = s.blk.rsv ∧ t.blk.buf = s.blk.buf ∧
    t.blk.nppOut = s.blk.nppOut ∧ (∀ f ∈ t.blk.faults, f ∈ s.blk.faults ∨ f = .settle)

/-- Opcode dispatch: the first byte the block sends is the constant of the operation, OR'd for RCR, WCR, BFS and BFC with the
low five bits of the address it passes; bits 7:5 of that address, or of an identifier, never reach it (R73). -/
def Obligations.OpcodeDispatch : Prop :=
  (∀ i : Instr, (encode i).head? = some (match i with
    | .rcr a _ => 0x00 ||| (a.setWidth 8 &&& 0x1F)
    | .wcr a _ => 0x40 ||| (a.setWidth 8 &&& 0x1F)
    | .bfs a _ => 0x80 ||| (a.setWidth 8 &&& 0x1F)
    | .bfc a _ => 0xA0 ||| (a.setWidth 8 &&& 0x1F)
    | .rbm _ => 0x3A
    | .wbm _ => 0x7A
    | .src => 0xFF)) ∧
  ∀ (s : State) (a v : Byte) (dummy : Bool) (n : Nat) (bs : List Byte),
    let opens := fun (o : Op) (k : Nat) (b : Byte) => s.blk.op = some o → s.blk.step = k →
      ∃ payload, blockFrame s = some (b :: payload)
    opens (.readControlRegister a dummy) 0 (0x00 ||| (a &&& 0x1F)) ∧
    opens (.writeControlRegister a v) 0 (0x40 ||| (a &&& 0x1F)) ∧
    opens (.bitFieldSet a v) 0 (0x80 ||| (a &&& 0x1F)) ∧
    opens (.bitFieldClear a v) 0 (0xA0 ||| (a &&& 0x1F)) ∧
    opens (.readBufferMemory n) 0 0x3A ∧ opens (.writeBufferMemory bs) 0 0x7A ∧ opens .systemReset 0 0xFF ∧
    opens (.readRegister a) 2 (0x00 ||| (a &&& 0x1F)) ∧ opens (.writeRegister a v) 2 (0x40 ||| (a &&& 0x1F))

/-- A frame from outside that is no transaction records its model fault, also while a settling delay runs, and has no
effect on a device that is neither settling nor in power save (R78, R80, R170). -/
def Obligations.RejectedFrameHasNoEffect : Prop :=
  ∀ (s : State) (tx : List Byte) (rest : List Event) (why : Reject), s.agenda = .frame tx :: rest → s.bus = none →
    decode tx = .rejected why → why ≠ .empty →
    ∃ t, step s = .next t ∧ (s.BusReady → t.dev = s.dev) ∧
      (why = .reservedOpcode → .reservedOpcode ∈ t.blk.faults) ∧ (why = .frameLength → .frameLength ∈ t.blk.faults) ∧
      (s.blk.settling = true ∨ s.devSettling = true → .settle ∈ t.blk.faults) ∧
      ∃ rx, rx.length = tx.length ∧ t.blk.log = s.blk.log ++ [⟨tx, rx⟩]

/-- Only WBM and SRC change buffer memory, the PHY registers or CLKRDY (R49, R60). -/
def Obligations.OtherTransactionsLeaveMemory : Prop :=
  ∀ (i : Instr) (s t : State), s.BusReady → exec i s = .next t → (∀ data, i ≠ .wbm data) → i ≠ .src →
    (∀ a, Memory.read t.dev.mem a = Memory.read s.dev.mem a) ∧ t.dev.pr = s.dev.pr ∧ t.dev.clkrdy = s.dev.clkrdy

/-! ## Read control register (R92, R93) -/

/-- RCR changes nothing in the device; its value stands in `rx[1]` on an ETH-class register and in `rx[2]` on a
MAC/MII-class one; any other length records F_FRAME_LENGTH (R93). -/
def Obligations.RcrReturnsTheRegister : Prop :=
  ∀ (a : Addr) (fill : List Byte) (s : State), s.BusReady → ∃ t, exec (.rcr a fill) s = .next t ∧ t.dev = s.dev ∧
    (fill.length = 1 ∨ fill.length = 2 → t.blk.faults = s.blk.faults) ∧
    (¬(fill.length = 1 ∨ fill.length = 2) → .frameLength ∈ t.blk.faults) ∧
    (devMacmii s.cfg (bsel s.dev.regs) a = false → fill.length = 1 ∨ fill.length = 2 →
      ∃ free, t.blk.rx[1]? = some (devRead s.cfg s.dev a free)) ∧
    (devMacmii s.cfg (bsel s.dev.regs) a = true → fill.length = 2 →
      ∃ free, t.blk.rx[2]? = some (devRead s.cfg s.dev a free))

/-- What a register reads: the stored byte, but for the registers R90 lists; PKTIF is EPKTCNT ≠ 0 under countNonZero and
the stored bit under stickyUntilCleared (R144). -/
def Obligations.DeviceReadValues : Prop :=
  ∀ (c : Config) (d : Device) (a : Addr) (free : Byte),
    let v := devRead c d a free
    let b := bsel d.regs
    (a = 0x1C → v.getLsbD 7 = false ∧ v.getLsbD 2 = false ∧
      (c.pktif = .countNonZero → (v.getLsbD 6 = true ↔ d.regs.epktcnt ≠ 0)) ∧
      (c.pktif = .stickyUntilCleared → v.getLsbD 6 = d.regs.eir.getLsbD 6) ∧
      (∀ k, k = 0 ∨ k = 1 ∨ k = 3 ∨ k = 4 ∨ k = 5 → v.getLsbD k = d.regs.eir.getLsbD k)) ∧
    (a = 0x1D → v.getLsbD 0 = d.clkrdy) ∧
    (b = 3 → a = 0x0A → v = if d.phyop ≠ .none then 0x01 else 0x00) ∧
    (b = 1 → a = 0x19 → v = d.regs.epktcnt) ∧
    (b = 0 → a = 0x0E → v.toNat = d.regs.erxwrpt.toNat % 256) ∧
    (b = 0 → a = 0x0F → v.toNat = d.regs.erxwrpt.toNat / 256) ∧
    (a = 0x1E → v.getLsbD 6 = false) ∧
    (reservedZero d.regs → (∀ k, regAt (devLoc d.regs a) ≠ .absent k) → a ≠ 0x1C → a ≠ 0x1D →
      ¬(b = 3 ∧ (a = 0x0A ∨ a = 0x12)) → v = devStored d.regs a)

/-- Addresses 0x1B to 0x1F reach the same location in every bank, for reads and for writes: with any other byte in
ECON1, so in any other bank, a read gives the same byte, that of ECON1 the byte it holds, and a write does the same
(R29, R51, R89). -/
def Obligations.CommonRegistersIgnoreTheBank : Prop :=
  ∀ (c : Config) (d : Device) (a : Addr) (e : Byte), 0x1B ≤ a →
    let d' := { d with regs := { d.regs with econ1 := e } }
    devLoc d'.regs a = devLoc d.regs a ∧
    (a ≠ 0x1F → ∀ free, devRead c d' a free = devRead c d a free) ∧
    (a = 0x1F → ∀ free, devRead c d a free = d.regs.econ1 ∧ devRead c d' a free = e) ∧
    (a ≠ 0x1F → ∀ draw v, devWrite c draw a v d' =
      let w := devWrite c draw a v d
      ⟨{ w.dev with regs := { w.dev.regs with econ1 := e } }, w.faults⟩) ∧
    (a = 0x1F → ∀ draw v, devWrite c draw a v d' = devWrite c draw a v d ∧
      (devWrite c draw a v d).dev.regs.econ1 = v)

/-! ## Write control register (R96, R97) -/

/-- WCR on the common registers, on the read-only registers and on plain storage: the register's new value, and
nothing else of the device changes (R39 to R43, R46, R91, R144).
The model's choices are that a location with no register of R36 stores the byte (log 17), that EIE stores all its bits,
bit 2 included (log 31), and that under stickyUntilCleared a write of 1 sets bit 6 of EIR (log 33). -/
def Obligations.WcrWritesTheRegister : Prop :=
  ∀ (a : Addr) (v : Byte) (s : State), s.BusReady → ∃ t, exec (.wcr a v) s = .next t ∧
    let d := s.dev
    let r := d.regs
    let b := bsel r
    (a = 0x1B → t.dev = { d with regs := { r with eie := v } }) ∧
    (a = 0x1C → s.cfg.pktif = .countNonZero → t.dev = { d with regs := { r with eir := (v &&& 0x3B) ||| (r.eir &&& 0x40) } }) ∧
    (a = 0x1C → s.cfg.pktif = .stickyUntilCleared → t.dev = { d with regs := { r with eir := v &&& 0x7B } }) ∧
    (a = 0x1E → t.dev = { d with regs := { r with
      econ2 := v &&& 0xA8
      epktcnt := if v.getLsbD 6 = true ∧ r.epktcnt ≠ 0 then r.epktcnt - 1 else r.epktcnt } }) ∧
    (a = 0x1F → t.dev = { d with regs := { r with econ1 := v } }) ∧
    (a = 0x1D ∨ (b = 1 ∧ a = 0x19) ∨ (b = 0 ∧ (a = 0x0E ∨ a = 0x0F)) ∨ (b = 2 ∧ (a = 0x18 ∨ a = 0x19)) ∨
      (b = 3 ∧ (a = 0x0A ∨ a = 0x12)) → t.dev = d) ∧
    (∀ k, regAt (devLoc r a) = .plain k → t.dev = { d with regs := { r with plain := r.plain.set k v } }) ∧
    (∀ k, regAt (devLoc r a) = .absent k → t.dev = { d with regs := { r with plain := r.plain.set k v } }) ∧
    ((∀ x ∈ [(0x12 : Addr), 0x17], ¬(b = 2 ∧ a = x)) → t.blk.faults = s.blk.faults)

/-- WCR on a byte of a 13-bit pointer pair: the low byte is stored whole, of the high byte bits 4:0, and a write of
ERXST moves ERXWRPT to it (R31, R91, R145). -/
def Obligations.WcrWritesPointerBytes : Prop :=
  ∀ (a : Addr) (v : Byte) (s : State), s.BusReady → bsel s.dev.regs = 0 → ∃ t, exec (.wcr a v) s = .next t ∧
    let r := s.dev.regs
    let low := fun (p q : Ptr) => q.toNat = p.toNat / 256 * 256 + v.toNat
    let high := fun (p q : Ptr) => q.toNat = v.toNat % 32 * 256 + p.toNat % 256
    let only := fun (r' : DevRegs) => t.dev = { s.dev with regs := r' }
    (a = 0x00 → ∃ q, low r.erdpt q ∧ only { r with erdpt := q }) ∧
    (a = 0x01 → ∃ q, high r.erdpt q ∧ only { r with erdpt := q }) ∧
    (a = 0x02 → ∃ q, low r.ewrpt q ∧ only { r with ewrpt := q }) ∧
    (a = 0x03 → ∃ q, high r.ewrpt q ∧ only { r with ewrpt := q }) ∧
    (a = 0x04 → ∃ q, low r.etxst q ∧ only { r with etxst := q }) ∧
    (a = 0x05 → ∃ q, high r.etxst q ∧ only { r with etxst := q }) ∧
    (a = 0x06 → ∃ q, low r.etxnd q ∧ only { r with etxnd := q }) ∧
    (a = 0x07 → ∃ q, high r.etxnd q ∧ only { r with etxnd := q }) ∧
    (a = 0x08 → ∃ q, low r.erxst q ∧ only { r with erxst := q, erxwrpt := q }) ∧
    (a = 0x09 → ∃ q, high r.erxst q ∧ only { r with erxst := q, erxwrpt := q }) ∧
    (a = 0x0A → ∃ q, low r.erxnd q ∧ only { r with erxnd := q }) ∧
    (a = 0x0B → ∃ q, high r.erxnd q ∧ only { r with erxnd := q }) ∧
    (a = 0x0C → ∃ q, low r.erxrdpt q ∧ only { r with erxrdpt := q }) ∧
    (a = 0x0D → ∃ q, high r.erxrdpt q ∧ only { r with erxrdpt := q })

/-- WCR on the PHY indirect-access registers: MICMD.MIIRD := 1 starts a PHY read and a write to MIWRH a PHY write when
the engine is idle; on a busy engine F_PHY_OVERLAP is recorded (R44, R91, R123). -/
def Obligations.WcrDrivesThePhyEngine : Prop :=
  ∀ (a : Addr) (v : Byte) (s : State), s.BusReady → bsel s.dev.regs = 2 → ∃ t, exec (.wcr a v) s = .next t ∧
    let d := s.dev
    let r := d.regs
    (a = 0x14 → t.dev = { d with regs := { r with miregadr := v.setWidth 5 } }) ∧
    (a = 0x16 → t.dev = { d with regs := { r with miwrl := v } }) ∧
    (a = 0x12 → t.dev.regs = { r with micmd := v &&& 0x03 } ∧ t.dev.mem = d.mem ∧ t.dev.pr = d.pr ∧
      (v.getLsbD 0 = false → t.dev.phyop = d.phyop ∧ t.blk.faults = s.blk.faults) ∧
      (v.getLsbD 0 = true → d.phyop = .none → t.dev.phyop = .rd r.miregadr ∧ t.blk.faults = s.blk.faults) ∧
      (v.getLsbD 0 = true → d.phyop ≠ .none → .phyOverlap ∈ t.blk.faults)) ∧
    (a = 0x17 → t.dev.regs = { r with miwrh := v } ∧ t.dev.mem = d.mem ∧ t.dev.pr = d.pr ∧
      (d.phyop = .none →
        (∃ w : Word, t.dev.phyop = .wr r.miregadr w ∧ w.toNat = v.toNat * 256 + r.miwrl.toNat) ∧
          t.blk.faults = s.blk.faults) ∧
      (d.phyop ≠ .none → .phyOverlap ∈ t.blk.faults))

/-! ## Bit-field set and clear (R100 to R103) -/

/-- BFS: on a MAC/MII-class register the fault and no effect, else what a write of the stored byte OR the mask does;
on ECON1 that is the OR itself (R101).
The model's choices are that the write happens also where it changes no bit, so that on ERXSTL and ERXSTH it sets ERXWRPT to
ERXST although R100 says that nothing changes (log 36), that under stickyUntilCleared it sets bit 6 of EIR where the mask
does (log 33), and that a location with no register has a stored byte (log 17). -/
def Obligations.BfsSetsBits : Prop :=
  ∀ (a : Addr) (m : Byte) (s : State), s.BusReady → ∃ t, exec (.bfs a m) s = .next t ∧
    (devMacmii s.cfg (bsel s.dev.regs) a = true → t.dev = s.dev ∧ .bitopMacmii ∈ t.blk.faults) ∧
    (devMacmii s.cfg (bsel s.dev.regs) a = false →
      ∃ u, exec (.wcr a (devStored s.dev.regs a ||| m)) s = .next u ∧ t.dev = u.dev ∧ t.blk.faults = u.blk.faults) ∧
    (devMacmii s.cfg (bsel s.dev.regs) a = false → a = 0x1F →
      t.dev = { s.dev with regs := { s.dev.regs with econ1 := s.dev.regs.econ1 ||| m } })

/-- BFC: as BFS with the AND of the mask's inverse (R103).
The model's choices are that the write happens also where it changes no bit, so that on ERXSTL and ERXSTH it sets ERXWRPT to
ERXST although R102 says that nothing changes (log 36), that under stickyUntilCleared it writes back a 1 in bit 6 of EIR
(log 33), and that a location with no register has a stored byte (log 17). -/
def Obligations.BfcClearsBits : Prop :=
  ∀ (a : Addr) (m : Byte) (s : State), s.BusReady → ∃ t, exec (.bfc a m) s = .next t ∧
    (devMacmii s.cfg (bsel s.dev.regs) a = true → t.dev = s.dev ∧ .bitopMacmii ∈ t.blk.faults) ∧
    (devMacmii s.cfg (bsel s.dev.regs) a = false →
      ∃ u, exec (.wcr a (devStored s.dev.regs a &&& ~~~m)) s = .next u ∧ t.dev = u.dev ∧ t.blk.faults = u.blk.faults) ∧
    (devMacmii s.cfg (bsel s.dev.regs) a = false → a = 0x1F →
      t.dev = { s.dev with regs := { s.dev.regs with econ1 := s.dev.regs.econ1 &&& ~~~m } })

/-! ## Buffer memory (R94, R95, R98, R99) -/

/-- RBM: the k-th data byte is the byte last written where ERDPT, advanced k times, stands; ERDPT ends advanced N times,
and nothing else of the device changes (R61, R95). -/
def Obligations.RbmReadsTheStream : Prop :=
  ∀ (fill : List Byte) (s : State), s.BusReady → ∃ t, exec (.rbm fill) s = .next t ∧
    let r := s.dev.regs
    let next := fun p : Ptr => if r.econ2.getLsbD 7 then (if p = r.erxnd then r.erxst else p + 1) else p
    t.blk.rx.length = 1 + fill.length ∧
    (∀ k < fill.length, ∀ b, Memory.read s.dev.mem (next^[k] r.erdpt).toNat = some b → t.blk.rx[k + 1]? = some b) ∧
    t.dev = { s.dev with regs := { r with erdpt := next^[fill.length] r.erdpt } } ∧
    t.blk.faults = s.blk.faults

/-- k bytes read from inside the ring leave ERDPT at ringAdd(p, k) when AUTOINC = 1 (R63). -/
def Obligations.RbmAdvancesRoundTheRing : Prop :=
  ∀ (fill : List Byte) (s : State), s.BusReady → autoinc s.dev.regs = true →
    s.dev.regs.erxst ≤ s.dev.regs.erdpt → s.dev.regs.erdpt ≤ s.dev.regs.erxnd →
    ∃ t, exec (.rbm fill) s = .next t ∧
      let first := s.dev.regs.erxst.toNat
      let size := s.dev.regs.erxnd.toNat - first + 1
      t.dev.regs.erdpt.toNat = first + (s.dev.regs.erdpt.toNat - first + fill.length) % size

/-- WBM with AUTOINC = 1: the bytes stand from EWRPT on, modulo MEM_SIZE; every other byte of memory and everything else
of the device is unchanged (R62, R99). -/
def Obligations.WbmStoresTheStream : Prop :=
  ∀ (data : List Byte) (s : State), s.BusReady → autoinc s.dev.regs = true → ∃ t, exec (.wbm data) s = .next t ∧
    let at' := fun k => (s.dev.regs.ewrpt.toNat + k) % 8192
    t.dev.regs.ewrpt.toNat = at' data.length ∧
    (data.length ≤ 8192 → ∀ k < data.length, Memory.read t.dev.mem (at' k) = data[k]?) ∧
    (∀ a, (∀ k < data.length, at' k ≠ a) → Memory.read t.dev.mem a = Memory.read s.dev.mem a) ∧
    t.dev = { s.dev with regs := { s.dev.regs with ewrpt := t.dev.regs.ewrpt }, mem := t.dev.mem } ∧
    t.blk.faults = s.blk.faults

/-- WBM with AUTOINC = 0: every byte goes to EWRPT, which stays; the last one remains (R62, R99). -/
def Obligations.WbmWithoutAutoincrement : Prop :=
  ∀ (data : List Byte) (s : State), s.BusReady → autoinc s.dev.regs = false → ∃ t, exec (.wbm data) s = .next t ∧
    t.dev.regs = s.dev.regs ∧
    (∀ b, data.getLast? = some b → Memory.read t.dev.mem s.dev.regs.ewrpt.toNat = some b) ∧
    (∀ a, a ≠ s.dev.regs.ewrpt.toNat ∨ data = [] → Memory.read t.dev.mem a = Memory.read s.dev.mem a)

/-! ## System reset (R104, R105, R148, R149) -/

/-- The two resets are independent. SRC: the device takes DEV_RESET, PHYOP none, CLKRDY false, and no memory byte keeps a
known value; the settling delay begins (R48, R104, R105). Power-on of the device: the same, and the block keeps all its
registers (R171, R173). Block reset: the block takes R47's values, and the device keeps all its state (R171).
SRC does this whatever state the device is in, power save and the `any` after a BusFault among them (R105, R156); of the
block this clause says x[SETTLING] and x[FAULTS], and TransactionWritesOnlyLogAndSettling the rest.
That the device's settling is a storage beside x[SETTLING], which a block reset leaves alone, is the model's reading (log 11);
that the power-on begins and ends no settling delay, and that a block reset begins a new run, is its choice (log 25). -/
def Obligations.SrcResetsTheDevice : Prop :=
  (∀ s : State, s.BusFree → ∃ t, exec .src s = .next t ∧
    t.dev.regs = s.cfg.devReset ∧ t.dev.phyop = .none ∧ t.dev.clkrdy = false ∧
    (∀ a, Memory.read t.dev.mem a = none) ∧ t.blk.settling = true ∧ t.devSettling = true ∧
    t.blk.faults = s.blk.faults) ∧
  (∀ (s : State) (rest : List Event), s.agenda = .powerOn :: rest → ∃ t, step s = .next t ∧
    t.dev.regs = s.cfg.devReset ∧ t.dev.phyop = .none ∧ t.dev.clkrdy = false ∧
    (∀ a, Memory.read t.dev.mem a = none) ∧ t.blk = s.blk ∧ t.devSettling = s.devSettling) ∧
  (∀ (s : State) (rest : List Event), s.agenda = .blockReset :: rest → ∃ t, step s = .next t ∧
    t.dev = s.dev ∧ t.devSettling = s.devSettling ∧
    t.blk.cs = false ∧ t.blk.op = none ∧ t.blk.physt = .idle ∧ t.blk.rxst = .idle ∧ t.blk.pollcnt = 0 ∧
    t.blk.settling = false ∧ t.blk.err = .ok ∧ t.blk.faults = [] ∧ t.blk.log = [] ∧
    t.blk.buf = s.blk.buf ∧ t.blk.nppOut = s.blk.nppOut ∧ t.agenda = rest)

/-- systemReset: one frame [FF], then the delay, which sends none; the device ends in DEV_RESET, with PHYOP none, CLKRDY
false and no memory byte of a known value, and the block's own registers keep their values (R48, R148, R149).
The device may be in any state before it, in power save or after a BusFault (R105, R156). -/
def Obligations.SystemResetOperation : Prop :=
  ∀ s : State, s.agenda = [] → s.BusFree → s.blk.op = none → ∃ t, run 3 { s with agenda := [.request .systemReset] } = .next t ∧
    t.blk.op = none ∧ t.blk.err = .ok ∧ t.blk.settling = false ∧ t.devSettling = false ∧
    t.dev.regs = s.cfg.devReset ∧ t.dev.phyop = .none ∧ t.dev.clkrdy = false ∧
    (∀ a, Memory.read t.dev.mem a = none) ∧
    t.blk.log.map Frame.tx = s.blk.log.map Frame.tx ++ [[0xFF]] ∧
    t.blk.cs = false ∧ t.blk.physt = .idle ∧ t.blk.rxst = .idle ∧ t.blk.pollcnt = s.blk.pollcnt ∧
    t.blk.npp = s.blk.npp ∧ t.blk.flen = s.blk.flen ∧ t.blk.rsv = s.blk.rsv ∧ t.blk.buf = s.blk.buf ∧
    t.blk.nppOut = s.blk.nppOut ∧ t.blk.faults = s.blk.faults

/-! ## Requests, errors and model faults (60_exceptions.md) -/

/-- A request while an operation runs records F_REENTRY and changes nothing else (R162). -/
def Obligations.RequestWhileBusyIsRefused : Prop :=
  ∀ (s : State) (o p : Op) (rest : List Event), s.agenda = .request o :: rest → s.blk.op = some p →
    ∃ t, step s = .next t ∧ .reentry ∈ t.blk.faults ∧
      t = { s with agenda := rest, blk := { s.blk with faults := t.blk.faults } } ∧
      ∀ f ∈ t.blk.faults, f ∈ s.blk.faults ∨ f = .reentry

/-- An operation with a failing check raises InvalidRegister with the first offending identifier, sends no frame and
changes no state but x[ERR] and what the Caller is given (R106, R158).
Which identifier of a composite operation is the first is the model's choice: the order of initialize's checks (log 20),
and that of a pair's inside a composite (log 22). -/
def Obligations.InvalidRegisterBeforeAnyFrame : Prop :=
  ∀ (s : State) (o : Op) (rest : List Event) (k : Check), s.agenda = .request o :: rest → s.Placed → s.blk.op = none →
    firstFailing s.cfg o = some k →
    step s = .next { s with
      agenda := rest
      blk := { s.blk with err := .invalidRegister k.offending, ret := .none } }

/-- A pair's checks pass: its low address is at most 0x1E, and both identifiers are of REG_VALID (R111, R112). -/
abbrev PairValid (c : Config) (lowId : Byte) : Prop :=
  lowId &&& 0x1F ≠ 0x1F ∧ regValid c lowId = true ∧ regValid c (lowId + 1) = true

/-- Which requests those are, and that every other request passes: an identifier outside REG_VALID, a pair whose low
address is 0x1F, a PHY address above 31 (R106, R111, R112, R113, R119, R120, R121, R126, R152, R158). A composite operation
passes exactly when every identifier of REGMAP and of INIT_CFG it will use does; that a REGMAP pair is checked as R112 does
is the model's reading (log 22). -/
def Obligations.WhichRequestsAreInvalid : Prop :=
  ∀ (c : Config) (id p v : Byte) (w : Word),
    (firstFailing c (.readRegister id) = if regValid c id = true then none else some (.register id)) ∧
    (firstFailing c (.writeRegister id v) = if regValid c id = true then none else some (.register id)) ∧
    (∀ o, o = .readRegisterPair id ∨ o = .writeRegisterPair id w → firstFailing c o =
      if id &&& 0x1F = 0x1F then some (.pairLow id)
      else if regValid c id = false then some (.register id)
      else if regValid c (id + 1) = false then some (.register (id + 1)) else none) ∧
    (31 < p → firstFailing c (.readPhy p) = some (.phyAddr p) ∧ firstFailing c (.writePhy p w) = some (.phyAddr p)) ∧
    (firstFailing c (.readPhy p) = none ↔ p ≤ 31 ∧ regValid c c.regmap.miregadr = true ∧
      regValid c c.regmap.micmd = true ∧ regValid c c.regmap.mistat = true ∧ PairValid c c.regmap.mirdl) ∧
    (firstFailing c (.writePhy p w) = none ↔ p ≤ 31 ∧ regValid c c.regmap.miregadr = true ∧
      PairValid c c.regmap.miwrl ∧ regValid c c.regmap.mistat = true) ∧
    (firstFailing c .receivePacket = none ↔ regValid c c.regmap.eir = true ∧ PairValid c c.regmap.erxrdptl ∧
      PairValid c c.regmap.erdptl) ∧
    (∀ i : InitCfg, firstFailing c (.init i) = none ↔
      (PairValid c c.regmap.erxstl ∧ PairValid c c.regmap.erxndl ∧ PairValid c c.regmap.erxrdptl ∧
        regValid c c.regmap.erxfcon = true ∧ regValid c c.regmap.estat = true ∧ regValid c c.regmap.miregadr = true ∧
        PairValid c c.regmap.miwrl ∧ regValid c c.regmap.mistat = true ∧ PairValid c c.regmap.ewrptl ∧
        PairValid c c.regmap.etxstl ∧ regValid c c.regmap.eie = true) ∧
      (∀ e ∈ i.macCfg, regValid c e.1 = true) ∧ (∀ k : Fin 6, regValid c i.macAddrId[k] = true) ∧
      i.phyCfg0.1 ≤ 31 ∧ i.phyCfg1.1 ≤ 31) ∧
    (∀ d pl, firstFailing c (.sendPacket d pl) = none) ∧ firstFailing c .systemReset = none ∧
    (∀ d n bs, firstFailing c (.readControlRegister id d) = none ∧ firstFailing c (.readBufferMemory n) = none ∧
      firstFailing c (.writeControlRegister id v) = none ∧ firstFailing c (.writeBufferMemory bs) = none ∧
      firstFailing c (.bitFieldSet id v) = none ∧ firstFailing c (.bitFieldClear id v) = none)

/-- While every frame is the block's own, and no block reset falls, neither side's settling delay runs but inside a system
reset (R65, R105, R148).
A bus failure and a power-on of the device may fall: that a failed system-reset frame leaves both settling states as they
were (log 19), and that a power-on begins no delay (log 25), are the model's choices. -/
def Obligations.StepKeepsOwnFrames : Prop :=
  ∀ s t : State, s.OwnFrames → step s = .next t → t.OwnFrames

/-- The block's own sequences never raise F_SETTLE, F_FRAME_LENGTH or F_RESERVED_OPCODE (R161). -/
def Obligations.OwnFramesRaiseNoFrameFault : Prop :=
  ∀ s t : State, s.OwnFrames → step s = .next t →
    ∀ f ∈ t.blk.faults, f = .settle ∨ f = .frameLength ∨ f = .reservedOpcode → f ∈ s.blk.faults

/-- The composite operations never raise F_BITOP_MACMII: their bit-field frames go to the bank-select register, which is
not of the MAC/MII class (R107, R161). It holds of each move of the block, alone or among the moves of other agents. -/
def Obligations.SequencesRaiseNoBitopFault : Prop :=
  ∀ (s t : State) (o : Op), (s.agenda = [] ∨ ∃ rest, s.agenda = .block :: rest) → s.blk.op = some o → s.blk.settling = false →
    (∀ a m, o ≠ .bitFieldSet a m ∧ o ≠ .bitFieldClear a m) →
    devMacmii s.cfg (bsel s.dev.regs) (idAddr s.cfg.regmap.econ1) = false → step s = .next t →
    .bitopMacmii ∈ t.blk.faults → .bitopMacmii ∈ s.blk.faults

/-! ## Register access (41_register_access.md) -/

/-- What the register operations need of the parameters: ECON1 at 0x1F, of the ETH class in every bank (R107). -/
abbrev BankSelectDefault (c : Config) : Prop := c.regmap.econ1 = 0x1F ∧ ∀ b, devMacmii c b 0x1F = false

/-- readRegister issues exactly a bank clear, a bank set and one RCR, whatever bank was selected, and returns what the
register of its bank reads (R107, R108, R110). -/
def Obligations.ReadRegisterFramesAndValue : Prop :=
  ∀ (s : State) (id : Byte), s.Quiet → s.blk.op = none → BankSelectDefault s.cfg → regValid s.cfg id = true →
    devMacmii s.cfg (idBank id) (idAddr id) = idMac id →
    ∃ t free, run 4 { s with agenda := [.request (.readRegister id)] } = .next t ∧
      t.blk.op = none ∧ t.blk.err = .ok ∧ bsel t.dev.regs = idBank id ∧
      t.blk.ret = .byte (devRead t.cfg t.dev (idAddr id) free) ∧
      t.dev = { s.dev with regs := { s.dev.regs with econ1 := t.dev.regs.econ1 } } ∧
      t.blk.log.map Frame.tx = s.blk.log.map Frame.tx ++
        [[0xBF, 0x03], [0x9F, (idBank id).setWidth 8],
          (idAddr id).setWidth 8 :: (if idMac id then [0x00, 0x00] else [0x00])]

/-- writeRegister issues exactly a bank clear, a bank set and one WCR, whatever bank was selected (R107, R109,
R110). -/
def Obligations.WriteRegisterFrames : Prop :=
  ∀ (s : State) (id v : Byte), s.Quiet → s.blk.op = none → BankSelectDefault s.cfg → regValid s.cfg id = true →
    ∃ t, run 4 { s with agenda := [.request (.writeRegister id v)] } = .next t ∧
      t.blk.op = none ∧ t.blk.err = .ok ∧ t.blk.ret = .unit ∧
      (idAddr id ≠ 0x1F → bsel t.dev.regs = idBank id) ∧ (idAddr id = 0x1F → t.dev.regs.econ1 = v) ∧
      t.blk.log.map Frame.tx = s.blk.log.map Frame.tx ++
        [[0xBF, 0x03], [0x9F, (idBank id).setWidth 8], [0x40 ||| (idAddr id).setWidth 8, v]]

/-- A register pair in plain storage: writeRegisterPair and then readRegisterPair returns the value, for all 16-bit
values (R114). -/
def Obligations.PlainPairRoundTrip : Prop :=
  ∀ (s : State) (id : Byte) (v : Word) (k l : Fin 128), s.Quiet → s.blk.op = none → BankSelectDefault s.cfg →
    firstFailing s.cfg (.readRegisterPair id) = none →
    regAt (locOf (idBank id) (idAddr id)) = .plain k →
    regAt (locOf (idBank (id + 1)) (idAddr (id + 1))) = .plain l →
    devMacmii s.cfg (idBank id) (idAddr id) = idMac id →
    devMacmii s.cfg (idBank (id + 1)) (idAddr (id + 1)) = idMac (id + 1) →
    ∃ t u, run 7 { s with agenda := [.request (.writeRegisterPair id v)] } = .next t ∧
      run 7 { t with agenda := [.request (.readRegisterPair id)] } = .next u ∧
      u.blk.ret = .word v ∧ u.blk.err = .ok ∧ u.blk.op = none

/-- A 13-bit pointer pair: the round trip returns the value masked to 13 bits (R31, R114). -/
def Obligations.PointerPairRoundTrip : Prop :=
  ∀ (s : State) (id : Byte) (v : Word), s.Quiet → s.blk.op = none → BankSelectDefault s.cfg →
    id ∈ [(0x00 : Byte), 0x02, 0x04, 0x06, 0x08, 0x0A, 0x0C] → firstFailing s.cfg (.readRegisterPair id) = none →
    devMacmii s.cfg 0 (idAddr id) = false → devMacmii s.cfg 0 (idAddr (id + 1)) = false →
    ∃ t u, run 7 { s with agenda := [.request (.writeRegisterPair id v)] } = .next t ∧
      run 7 { t with agenda := [.request (.readRegisterPair id)] } = .next u ∧
      u.blk.ret = .word (v &&& 0x1FFF) ∧ u.blk.err = .ok ∧ u.blk.op = none

/-! ## PHY indirect access (42_phy_access.md) -/

/-- The parameters that name registers are the defaults (R36, R37, R38). -/
abbrev DefaultMap (c : Config) : Prop :=
  c.regmap = RegMap.default ∧ c.regValid = Config.defaultRegValid ∧ c.devMacmii = Config.defaultDevMacmii

/-- phyComplete: a read puts PR[p] in MIRD, a write stores its value in PR[p], the engine is idle again; without an
operation in flight nothing happens. Under every weakly fair schedule an operation in flight is completed (R123). All this
while ECON2.PWRSV is clear (R170, log 37). -/
def Obligations.PhyCompletion : Prop :=
  (∀ (s : State) (rest : List Event), s.agenda = .phy :: rest → ∃ t, step s = .next t ∧ t.blk = s.blk ∧
    (pwrsv s.dev.regs = false → t.dev.mem = s.dev.mem ∧ t.dev.phyop = .none ∧
    (s.dev.phyop = .none → t.dev = s.dev) ∧
    (∀ p, s.dev.phyop = .rd p → t.dev.pr = s.dev.pr ∧
      t.dev.regs.mirdh.toNat * 256 + t.dev.regs.mirdl.toNat = (s.dev.pr[p.toFin]).toNat) ∧
    (∀ p v, s.dev.phyop = .wr p v → t.dev.regs = s.dev.regs ∧ t.dev.pr[p.toFin] = v ∧
      ∀ q, q ≠ p → t.dev.pr[q.toFin] = s.dev.pr[q.toFin]))) ∧
  ∀ (s : State) (σ : Schedule), FairPhy σ s → (∀ n, pwrsv (scheduled σ s n).dev.regs = false) →
    ∀ n, ∃ m, n ≤ m ∧ (scheduled σ s m).dev.phyop = .none

/-- readPhy with the engine completing before the first poll: 18 frames, and the value of PR[p] (R120, R123,
R124). -/
def Obligations.ReadPhyReturnsThePhyRegister : Prop :=
  ∀ (s : State) (p : Byte), s.Quiet → s.blk.op = none → DefaultMap s.cfg → s.dev.phyop = .none → (h : p.toNat < 32) →
    ∃ t, run 20 { s with agenda := .request (.readPhy p) :: List.replicate 6 .block ++ [.phy] } = .next t ∧
      t.blk.op = none ∧ t.blk.err = .ok ∧ t.blk.physt = .idle ∧ t.blk.ret = .word (s.dev.pr[p.toNat]'h) ∧
      t.dev.pr = s.dev.pr ∧ t.dev.regs.micmd = 0 ∧ t.blk.log.length = s.blk.log.length + 18 ∧
      t.blk.faults = s.blk.faults

/-- writePhy with the engine completing before the first poll: 12 frames, and PR[p] holds the value (R121, R123). -/
def Obligations.WritePhyStoresThePhyRegister : Prop :=
  ∀ (s : State) (p : Byte) (v : Word), s.Quiet → s.blk.op = none → DefaultMap s.cfg → s.dev.phyop = .none →
    (h : p.toNat < 32) →
    ∃ t, run 14 { s with agenda := .request (.writePhy p v) :: List.replicate 9 .block ++ [.phy] } = .next t ∧
      t.blk.op = none ∧ t.blk.err = .ok ∧ t.blk.physt = .idle ∧ t.dev.pr = s.dev.pr.set p.toNat v h ∧
      t.blk.log.length = s.blk.log.length + 12 ∧ t.blk.faults = s.blk.faults

/-- A PHY that is busy for K polls causes exactly K + 1 status reads, when the limit is none or above K (R116). A readPhy
then clears MICMD, its next step, in BusyPolling still; a writePhy returns (R117, R121). -/
def Obligations.BusyPhyIsPolledKPlusOneTimes : Prop :=
  (∀ (s : State) (p : Byte) (K : Nat), s.BusReady → DefaultMap s.cfg → s.blk.op = some (.readPhy p) → s.blk.step = 6 →
    s.blk.pollcnt = 0 → s.dev.phyop ≠ .none → (∀ n, s.cfg.pollLimit = some n → K < n) →
    s.agenda = List.replicate (3 * K) .block ++ [.phy] →
    ∃ t, run (3 * K + 1 + 3) s = .next t ∧ t.blk.op = some (.readPhy p) ∧ t.blk.step = 9 ∧
      t.blk.physt = .busyPolling ∧ t.blk.pollcnt = K ∧
      t.dev.phyop = .none ∧ t.blk.log.length = s.blk.log.length + 3 * (K + 1)) ∧
  ∀ (s : State) (p : Byte) (v : Word) (K : Nat), s.BusReady → DefaultMap s.cfg → s.blk.op = some (.writePhy p v) →
    s.blk.step = 9 → s.blk.pollcnt = 0 → s.dev.phyop ≠ .none → (∀ n, s.cfg.pollLimit = some n → K < n) →
    s.agenda = List.replicate (3 * K) .block ++ [.phy] →
    ∃ t, run (3 * K + 1 + 3) s = .next t ∧ t.blk.op = none ∧ t.blk.err = .ok ∧ t.blk.ret = .unit ∧
      t.blk.physt = .idle ∧ t.blk.pollcnt = K ∧
      t.dev.phyop = .none ∧ t.blk.log.length = s.blk.log.length + 3 * (K + 1)

/-- A PHY that stays busy under POLL_LIMIT = some n: Timeout(0xEA) after n status reads, in readPhy as in writePhy, the PHY
operation still in flight, no clean-up frame (R115, R120, R121, R122, R157). -/
def Obligations.BusyPhyTimesOut : Prop :=
  ∀ (s : State) (p : Byte) (v : Word) (n : Nat), s.Quiet → DefaultMap s.cfg →
    (s.blk.op = some (.readPhy p) ∧ s.blk.step = 6) ∨ (s.blk.op = some (.writePhy p v) ∧ s.blk.step = 9) →
    s.blk.pollcnt = 0 → s.dev.phyop ≠ .none → s.cfg.pollLimit = some n → 1 ≤ n →
    ∃ t, run (3 * n) s = .next t ∧ t.blk.op = none ∧ t.blk.physt = .idle ∧ t.blk.err = .timeout 0xEA ∧
      t.dev.phyop = s.dev.phyop ∧ t.dev.regs.micmd = s.dev.regs.micmd ∧
      t.blk.log.length = s.blk.log.length + 3 * n

/-! ## Receive (43_receive.md) -/

/-- Steps 1 to 3. Step 1 sends [9F 04], which sets RXEN (R127); step 3 sends [BF 04], which clears it (R129). Between them,
a poll of three frames that finds PKTIF set ends the wait, and PKTIF stays set (R116, R128, R141); a receive whose flag never
sets under POLL_LIMIT = some n: Timeout(0x1C) after n polls, RXEN as it was, the latches, the out-parameter and the buffer
unchanged (R128, R136).
That x[POLLCNT] is 0 as soon as step 1 is done, before the first poll, is the model's reading of R24 and R115 (log 26). -/
def Obligations.ReceiveTimesOut : Prop :=
  (∀ s : State, s.Quiet → DefaultMap s.cfg → s.blk.op = some .receivePacket → s.blk.step = 0 →
    ∃ t, step s = .next t ∧ t.blk.op = some .receivePacket ∧ t.blk.step = 1 ∧ t.blk.rxst = .waitPkt ∧
      t.blk.pollcnt = 0 ∧ rxen t.dev.regs = true ∧ t.blk.faults = s.blk.faults ∧
      t.dev = { s.dev with regs := { s.dev.regs with econ1 := s.dev.regs.econ1 ||| 0x04 } } ∧
      t.blk.log.map Frame.tx = s.blk.log.map Frame.tx ++ [[0x9F, 0x04]]) ∧
  (∀ s : State, s.Quiet → DefaultMap s.cfg → s.blk.op = some .receivePacket → s.blk.step = 4 →
    ∃ t, step s = .next t ∧ t.blk.op = some .receivePacket ∧ t.blk.step = 5 ∧ t.blk.rxst = .header ∧
      rxen t.dev.regs = false ∧ t.blk.faults = s.blk.faults ∧
      t.dev = { s.dev with regs := { s.dev.regs with econ1 := s.dev.regs.econ1 &&& ~~~0x04 } } ∧
      t.blk.log.map Frame.tx = s.blk.log.map Frame.tx ++ [[0xBF, 0x04]]) ∧
  (∀ s : State, s.Quiet → DefaultMap s.cfg → s.blk.op = some .receivePacket → s.blk.step = 1 →
    pktif s.cfg s.dev.regs = true →
    ∃ t, run 3 s = .next t ∧ t.blk.op = some .receivePacket ∧ t.blk.step = 4 ∧ t.blk.rxst = .disable ∧
      pktif t.cfg t.dev.regs = true ∧ t.blk.faults = s.blk.faults ∧
      t.dev = { s.dev with regs := { s.dev.regs with econ1 := s.dev.regs.econ1 &&& ~~~0x03 } } ∧
      t.blk.log.map Frame.tx = s.blk.log.map Frame.tx ++ [[0xBF, 0x03], [0x9F, 0x00], [0x1C, 0x00]]) ∧
  ∀ (s : State) (n : Nat), s.Quiet → DefaultMap s.cfg → s.blk.op = some .receivePacket → s.blk.step = 1 →
    s.blk.pollcnt = 0 → pktif s.cfg s.dev.regs = false → s.cfg.pollLimit = some n → 1 ≤ n →
    ∃ t, run (3 * n) s = .next t ∧ t.blk.op = none ∧ t.blk.rxst = .idle ∧ t.blk.err = .timeout 0x1C ∧
      rxen t.dev.regs = rxen s.dev.regs ∧ t.blk.npp = s.blk.npp ∧ t.blk.flen = s.blk.flen ∧ t.blk.rsv = s.blk.rsv ∧
      t.blk.nppOut = s.blk.nppOut ∧ t.blk.buf = s.blk.buf ∧ t.blk.log.length = s.blk.log.length + 3 * n

/-- Step 4 is one frame, [3A 00 00 00 00 00 00], and latches what its response holds: of the six bytes after the first, 0
(low) and 1 (high) are the next-packet pointer, 2 and 3 the frame length, 4 and 5 the status vector (R54, R130). That those
bytes are the ones ERDPT points at is BodyOverwritesTheBuffer. -/
def Obligations.HeaderIsLatched : Prop :=
  ∀ s : State, s.Quiet → s.blk.op = some .receivePacket → s.blk.step = 5 →
    ∃ t, step s = .next t ∧ ∃ (b : Byte) (h : Vector Byte 6),
      t.blk.log = s.blk.log ++ [⟨[0x3A, 0x00, 0x00, 0x00, 0x00, 0x00, 0x00], b :: h.toList⟩] ∧
      t.blk.npp.toNat = h[1].toNat * 256 + h[0].toNat ∧ t.blk.flen.toNat = h[3].toNat * 256 + h[2].toNat ∧
      t.blk.rsv.toNat = h[5].toNat * 256 + h[4].toNat

/-- Step 4: the six header bytes are those ERDPT points at; they go to the latches and to the buffer, the next-packet
pointer to the Caller (R61, R95, R130). Step 5: the x[FLEN] bytes that follow overwrite the buffer from offset 0, and the
rest of it stays (R131, R134). The way ERDPT advances is the ENC28J60's (log 7). -/
def Obligations.BodyOverwritesTheBuffer : Prop :=
  (∀ (s : State) (h : Vector Byte 6), s.Quiet → s.blk.op = some .receivePacket → s.blk.step = 5 →
    (∀ k : Fin 6, Memory.read s.dev.mem ((advanceRead s.dev.regs)^[k.val] s.dev.regs.erdpt).toNat = some h[k]) →
    ∃ t, step s = .next t ∧ t.blk.step = 6 ∧ t.blk.rxst = .body ∧
      t.blk.npp.toNat = h[1].toNat * 256 + h[0].toNat ∧ t.blk.flen.toNat = h[3].toNat * 256 + h[2].toNat ∧
      t.blk.rsv.toNat = h[5].toNat * 256 + h[4].toNat ∧ t.blk.nppOut = t.blk.npp ∧
      t.dev.regs.erdpt = (advanceRead s.dev.regs)^[6] s.dev.regs.erdpt ∧
      (∀ k : Fin 6, k.val < s.blk.buf.length → t.blk.buf[k.val]? = some h[k]) ∧
      (∀ k, 6 ≤ k → t.blk.buf[k]? = s.blk.buf[k]?)) ∧
  ∀ s : State, s.Quiet → s.blk.op = some .receivePacket → s.blk.step = 6 → s.blk.buf.length = s.cfg.bufCap →
    s.blk.flen.toNat ≤ s.cfg.bufCap →
    ∃ t, step s = .next t ∧ t.blk.step = 7 ∧ t.blk.rxst = .wbRdpt ∧
      t.dev.regs.erdpt = (advanceRead s.dev.regs)^[s.blk.flen.toNat] s.dev.regs.erdpt ∧
      (∀ k < s.blk.flen.toNat, ∀ b,
        Memory.read s.dev.mem ((advanceRead s.dev.regs)^[k] s.dev.regs.erdpt).toNat = some b → t.blk.buf[k]? = some b) ∧
      (∀ k, s.blk.flen.toNat ≤ k → t.blk.buf[k]? = s.blk.buf[k]?) ∧ t.blk.buf.length = s.blk.buf.length

/-- A frame length above BUF_CAP: F_RX_OVERFLOW, the operation ends before any step-5 frame, the device untouched
(R135). -/
def Obligations.OversizedFrameEndsTheReceive : Prop :=
  ∀ s : State, s.agenda = [] → s.blk.op = some .receivePacket → s.blk.step = 6 → s.cfg.bufCap < s.blk.flen.toNat →
    ∃ t, step s = .next t ∧ .rxOverflow ∈ t.blk.faults ∧ t.blk.op = none ∧ t.blk.rxst = .idle ∧ t.dev = s.dev ∧
      t.blk.log = s.blk.log ∧ t.blk.buf = s.blk.buf

/-- Steps 6 and 7: when receivePacket returns, ERXRDPT and ERDPT both hold the raw next-packet pointer, masked to 13
bits, in twelve frames, and the Caller has the frame length and the status vector (R132, R133, R137, R138).
That a pointer holds 13 bits is the ENC28J60's (R31, log 7). -/
def Obligations.ReceiveWritesThePointerBack : Prop :=
  ∀ s : State, s.Quiet → DefaultMap s.cfg → s.blk.op = some .receivePacket → s.blk.step = 7 →
    ∃ t, run 12 s = .next t ∧ t.blk.op = none ∧ t.blk.err = .ok ∧ t.blk.rxst = .idle ∧
      t.dev.regs.erxrdpt = s.blk.npp.setWidth 13 ∧ t.dev.regs.erdpt = s.blk.npp.setWidth 13 ∧
      t.blk.ret = .packet s.blk.flen s.blk.npp s.blk.rsv ∧ t.blk.npp = s.blk.npp ∧ t.dev.mem = s.dev.mem ∧
      t.blk.log.map Frame.tx = s.blk.log.map Frame.tx ++
        [[0xBF, 0x03], [0x9F, 0x00], [0x4C, lo8 s.blk.npp], [0xBF, 0x03], [0x9F, 0x00], [0x4D, hi8 s.blk.npp],
         [0xBF, 0x03], [0x9F, 0x00], [0x40, lo8 s.blk.npp], [0xBF, 0x03], [0x9F, 0x00], [0x41, hi8 s.blk.npp]]

/-! ## The RX engine (R142 to R145) -/

/-- An Ethernet frame does nothing to the device while ECON1.RXEN = 0 (R129, R142). R142 says that no such step happens;
that one which the agenda lists does nothing is the model's choice (log 24). The block is untouched always, the device while
ECON2.PWRSV is clear (R170, log 37). -/
def Obligations.NothingArrivesWhileDisabled : Prop :=
  ∀ (s : State) (f : List Byte) (w : Word) (rest : List Event), s.agenda = .rx f w :: rest → rxen s.dev.regs = false →
    ∃ t, step s = .next t ∧ t.blk = s.blk ∧ (pwrsv s.dev.regs = false → t.dev = s.dev)

/-- An Ethernet frame with EPKTCNT = 255, wherever the pointers stand, or one that does not fit: RXERIF is set and nothing
else of the device changes (R142). It does not fit when the free space is at most the bytes it takes; R142 gives the free
space with ERXWRPT inside the ring, and wherever ERXWRPT = ERXRDPT. With ERXRDPT outside the ring the distance, and in a
reversed ring the size, is the model's choice (log 15). ECON2.PWRSV is clear (R170, log 37). -/
def Obligations.OverrunDropsTheFrame : Prop :=
  ∀ (s : State) (f : List Byte) (w : Word) (rest : List Event), s.agenda = .rx f w :: rest → rxen s.dev.regs = true →
    pwrsv s.dev.regs = false → 1 ≤ f.length → f.length ≤ 0xFFFF →
    s.dev.regs.epktcnt = 255 ∨
      (((s.dev.regs.erxst ≤ s.dev.regs.erxwrpt ∧ s.dev.regs.erxwrpt ≤ s.dev.regs.erxnd) ∨
        s.dev.regs.erxrdpt = s.dev.regs.erxwrpt) ∧ rxFree s.dev.regs ≤ rxNeed s.cfg.rxOdd f.length) →
    ∃ t, step s = .next t ∧
      t.dev = { s.dev with regs := { s.dev.regs with eir := s.dev.regs.eir ||| 0x01 } } ∧ t.blk = s.blk

/-- A deposit: the six header bytes and the frame stand at ringAdd(ERXWRPT, i), every other byte of memory is as it was,
EPKTCNT goes up by one, ERXWRPT becomes the W' of R143, EIR changes only under stickyUntilCleared, where PKTIF is set, and
nothing else of the device changes (R142, R143, R144). With ERXRDPT outside the ring the free space is the model's
choice (log 15).
With ERXWRPT outside the ring (log 14) the frame is dropped or counted, and only memory and ERXWRPT are left free.
ECON2.PWRSV is clear (R170, log 37). -/
def Obligations.DepositStaysInTheRing : Prop :=
  (∀ (s : State) (f : List Byte) (w : Word) (rest : List Event), s.agenda = .rx f w :: rest → rxen s.dev.regs = true →
    pwrsv s.dev.regs = false →
    1 ≤ f.length → f.length ≤ 0xFFFF → s.dev.regs.erxst ≤ s.dev.regs.erxwrpt → s.dev.regs.erxwrpt ≤ s.dev.regs.erxnd →
    rxNeed s.cfg.rxOdd f.length < rxFree s.dev.regs → s.dev.regs.epktcnt ≠ 255 →
    let r := s.dev.regs
    let at' := place s.cfg.rxOdd (ringOf r) r.erxwrpt.toNat f.length
    let npp := BitVec.ofNat 16 at'.nextPacket
    let len := BitVec.ofNat 16 f.length
    let packet := [lo8 npp, hi8 npp, lo8 len, hi8 len, lo8 w, hi8 w] ++ f
    let slot := fun i => Ring.add (ringOf r) r.erxwrpt.toNat i
    ∃ t, step s = .next t ∧ t.blk = s.blk ∧
      (∀ i < 6 + f.length, Memory.read t.dev.mem (slot i) = packet[i]?) ∧
      (∀ a, (∀ i < 6 + f.length, slot i ≠ a) → Memory.read t.dev.mem a = Memory.read s.dev.mem a) ∧
      (∀ i, r.erxst.toNat ≤ slot i ∧ slot i ≤ r.erxnd.toNat) ∧
      t.dev.regs.erxwrpt.toNat = at'.writePtr ∧ r.erxst ≤ t.dev.regs.erxwrpt ∧ t.dev.regs.erxwrpt ≤ r.erxnd ∧
      (s.cfg.pktif = .countNonZero → t.dev.regs.eir = r.eir) ∧
      (s.cfg.pktif = .stickyUntilCleared → t.dev.regs.eir = r.eir ||| 0x40) ∧ pktif t.cfg t.dev.regs = true ∧
      t.dev = { s.dev with
        mem := t.dev.mem
        regs := { r with epktcnt := r.epktcnt + 1, erxwrpt := t.dev.regs.erxwrpt, eir := t.dev.regs.eir } }) ∧
  ∀ (s : State) (f : List Byte) (w : Word) (rest : List Event), s.agenda = .rx f w :: rest → rxen s.dev.regs = true →
    pwrsv s.dev.regs = false →
    1 ≤ f.length → f.length ≤ 0xFFFF → ¬(s.dev.regs.erxst ≤ s.dev.regs.erxwrpt ∧ s.dev.regs.erxwrpt ≤ s.dev.regs.erxnd) →
    ∃ t, step s = .next t ∧ t.blk = s.blk ∧
      (t.dev = { s.dev with regs := { s.dev.regs with eir := s.dev.regs.eir ||| 0x01 } } ∨
        (s.dev.regs.epktcnt ≠ 255 ∧ pktif t.cfg t.dev.regs = true ∧ t.dev = { s.dev with
          mem := t.dev.mem
          regs := { s.dev.regs with
            epktcnt := s.dev.regs.epktcnt + 1
            erxwrpt := t.dev.regs.erxwrpt
            eir := match s.cfg.pktif with
              | .countNonZero => s.dev.regs.eir
              | .stickyUntilCleared => s.dev.regs.eir ||| 0x40 } }))

/-- A deposited packet is what a read of the ring from its start gives: the header, with the next-packet pointer N of R143,
then the frame (R61, R63, R142, R143). With ERXRDPT outside the ring the free space is the model's choice (log 15). -/
def Obligations.DepositedPacketIsReadBack : Prop :=
  ∀ (s : State) (f : List Byte) (w : Word) (fill : List Byte), s.BusReady → rxen s.dev.regs = true →
    1 ≤ f.length → f.length ≤ 0xFFFF → s.dev.regs.erxst ≤ s.dev.regs.erxwrpt → s.dev.regs.erxwrpt ≤ s.dev.regs.erxnd →
    rxNeed s.cfg.rxOdd f.length < rxFree s.dev.regs → s.dev.regs.epktcnt ≠ 255 →
    s.dev.regs.erdpt = s.dev.regs.erxwrpt → autoinc s.dev.regs = true → fill.length = 6 + f.length →
    let npp := BitVec.ofNat 16 (place s.cfg.rxOdd (ringOf s.dev.regs) s.dev.regs.erxwrpt.toNat f.length).nextPacket
    ∃ t u, step { s with agenda := [.rx f w] } = .next t ∧ exec (.rbm fill) t = .next u ∧
      ∃ b : Byte, u.blk.rx = b ::
        ([lo8 npp, hi8 npp, lo8 (BitVec.ofNat 16 f.length), hi8 (BitVec.ofNat 16 f.length), lo8 w, hi8 w] ++ f)

/-- R143's values, with S' = first + (p - first + 6 + L) mod R. Under padEven both pointers are S', or the byte after it in
the ring for an odd L. Under shortOdd the write pointer is S', and the reported one is S', or the byte before it in the
ring when S' is odd. The reported next-packet pointer is even whenever ERXST, the ring size and the packet's start are
even, under either RX_ODD (R143). -/
def Obligations.NextPacketPointerIsEven : Prop :=
  ∀ (o : RxOdd) (first last p len : Nat), first ≤ p → p ≤ last →
    let at' := place o ⟨first, last⟩ p len
    let size := last - first + 1
    let after := first + (p - first + 6 + len) % size
    (o = .padEven → at'.writePtr = (if len % 2 = 1 then first + (p - first + 7 + len) % size else after) ∧
      at'.nextPacket = at'.writePtr) ∧
    (o = .shortOdd → at'.writePtr = after ∧
      at'.nextPacket = (if after % 2 = 1 then (if after = first then last else after - 1) else after)) ∧
    (first % 2 = 0 → size % 2 = 0 → p % 2 = 0 → at'.nextPacket % 2 = 0)

/-- A deposit never brings ERXWRPT to ERXRDPT, so a ring that fills up stops taking packets and never looks empty
(R142). -/
def Obligations.DepositNeverCatchesTheReadPointer : Prop :=
  ∀ (c : Config) (d : Device) (f : List Byte) (w : Word) (n : Nat), rxen d.regs = true →
    1 ≤ f.length → f.length ≤ 0xFFFF → d.regs.erxst ≤ d.regs.erxwrpt → d.regs.erxwrpt ≤ d.regs.erxnd →
    d.regs.erxst ≤ d.regs.erxrdpt → d.regs.erxrdpt ≤ d.regs.erxnd →
    rxNeed c.rxOdd f.length < rxFree d.regs → d.regs.epktcnt ≠ 255 →
    (rxArrive c n f w d).regs.erxwrpt ≠ d.regs.erxrdpt

/-! ## Transmit and initialization (44_transmit_init.md) -/

/-- sendPacket: five WBM frames, control byte, destination, source, length, payload, and no other; their bytes stand in
buffer memory from EWRPT on (R146). -/
def Obligations.SendPacketLayout : Prop :=
  ∀ (s : State) (dst : Mac) (payload : List Byte), s.Quiet → s.blk.op = none → autoinc s.dev.regs = true →
    let len := match s.cfg.txLenOrder with
      | .be => [hi8 s.cfg.frameLen, lo8 s.cfg.frameLen]
      | .le => [lo8 s.cfg.frameLen, hi8 s.cfg.frameLen]
    let bytes := [0x00] ++ dst.toList ++ s.cfg.srcMac.toList ++ len ++ payload
    ∃ t, run 6 { s with agenda := [.request (.sendPacket dst payload)] } = .next t ∧
      t.blk.op = none ∧ t.blk.err = .ok ∧ t.blk.faults = s.blk.faults ∧
      t.blk.log.map Frame.tx = s.blk.log.map Frame.tx ++
        [[0x7A, 0x00], 0x7A :: dst.toList, 0x7A :: s.cfg.srcMac.toList, 0x7A :: len, 0x7A :: payload] ∧
      t.dev.regs.ewrpt.toNat = (s.dev.regs.ewrpt.toNat + (15 + payload.length)) % 8192 ∧
      (15 + payload.length ≤ 8192 → ∀ k < 15 + payload.length,
        Memory.read t.dev.mem ((s.dev.regs.ewrpt.toNat + k) % 8192) = bytes[k]?) ∧
      t.dev.regs = { s.dev.regs with ewrpt := t.dev.regs.ewrpt }

/-- The clock agent makes ESTAT.CLKRDY read 1, and the clock-ready wait of initialize ends on that poll. Under every
schedule in which the clock agent and the block each move again and again, the Bus fails no frame, the device is not
reset and nothing else reaches the block, the unbounded wait ends (R34, R150). -/
def Obligations.ClockReadyEndsTheWait : Prop :=
  (∀ (s : State) (i : InitCfg), s.Quiet → DefaultMap s.cfg → s.blk.op = some (.init i) → s.blk.step = 21 →
    ∃ t, run 4 { s with agenda := [.clock] } = .next t ∧ t.blk.op = some (.init i) ∧ t.blk.step = 24 ∧
      t.dev.clkrdy = true) ∧
  ∀ (s : State) (i : InitCfg) (σ : Schedule), s.BusReady → DefaultMap s.cfg → s.cfg.pollLimit = none →
    s.blk.op = some (.init i) → s.blk.step = 21 → FairClock σ → (∀ n, ∃ m, n ≤ m ∧ σ m = .block) →
    (∀ n, σ n = .block ∨ σ n = .clock ∨ σ n = .phy ∨ ∃ f w, σ n = .rx f w) →
    ∃ n, (scheduled σ s n).blk.op = some (.init i) ∧ (scheduled σ s n).blk.step = 24 ∧
      (scheduled σ s n).dev.clkrdy = true

/-- The steps of initialize with one poll at each wait: 18 + 3 + 3 + 3·|MACCFG| + 18 + 24 + 12 + 3 (R152). -/
def Obligations.InitializeStepCount : Prop :=
  ∀ (c : Config) (i : InitCfg),
    (expansion c (.init i)).length = 18 + 3 + 3 + 3 * i.macCfg.length + 18 + 24 + 12 + 3
end

