-- ==== Sys2Proof/Laws/Decode.lean ====
section
/-! SUPPORT. The opcode byte, and what the decoder makes of it. -/

namespace Sys2Proof

@[simp] theorem opcodeOf_rcr (a : Addr) : opcodeOf (opbyte 0#8 a) = some .rcr := by revert a; decide
@[simp] theorem opcodeOf_wcr (a : Addr) : opcodeOf (opbyte 64#8 a) = some .wcr := by revert a; decide
@[simp] theorem opcodeOf_bfs (a : Addr) : opcodeOf (opbyte 128#8 a) = some .bfs := by revert a; decide
@[simp] theorem opcodeOf_bfc (a : Addr) : opcodeOf (opbyte 160#8 a) = some .bfc := by revert a; decide
@[simp] theorem opcodeOf_rbm : opcodeOf 58#8 = some .rbm := by decide
@[simp] theorem opcodeOf_wbm : opcodeOf 122#8 = some .wbm := by decide
@[simp] theorem opcodeOf_src : opcodeOf 255#8 = some .src := by decide

@[simp] theorem argOf_rcr (a : Addr) : argOf (opbyte 0#8 a) = a := by revert a; decide
@[simp] theorem argOf_wcr (a : Addr) : argOf (opbyte 64#8 a) = a := by revert a; decide
@[simp] theorem argOf_bfs (a : Addr) : argOf (opbyte 128#8 a) = a := by revert a; decide
@[simp] theorem argOf_bfc (a : Addr) : argOf (opbyte 160#8 a) = a := by revert a; decide

/-- The opcode byte an operation's row gives with an argument (R73). -/
def opcodeByte : Opcode → Addr → Byte
  | .rcr, a => opbyte 0x00 a
  | .rbm, _ => 0x3A
  | .wcr, a => opbyte 0x40 a
  | .wbm, _ => 0x7A
  | .bfs, a => opbyte 0x80 a
  | .bfc, a => opbyte 0xA0 a
  | .src, _ => 0xFF

/-- An assigned opcode byte is the one its operation and argument give. -/
theorem opcodeByte_of_opcodeOf {b : Byte} {op : Opcode} (h : opcodeOf b = some op) :
    opcodeByte op (argOf b) = b := by
  revert op; revert b; decide

/-- Every frame of the encoder has a first byte. -/
theorem encode_ne_nil (i : Instr) : encode i ≠ [] := by cases i <;> simp [encode]

theorem encode_length_pos (i : Instr) : 0 < (encode i).length := List.length_pos_iff.2 (encode_ne_nil i)

end Sys2Proof
end

