-- ==== Sys2Proof/Laws/Memory.lean ====
section
/-! SUPPORT. Buffer memory: a read after a write, and the canonical form every operation keeps. -/

namespace Sys2Proof.Machine

theorem Memory.read_write_same (m : List Host.Cell) (a : Nat) (v : Byte) :
    Memory.read (Memory.write m a v) a = some v := by
  induction m with
  | nil => simp [Memory.write, Memory.read]
  | cons x m ih =>
    unfold Memory.write
    split
    · simp [Memory.read]
    · split
      · simp [Memory.read]
      · rename_i h
        simp [Memory.read, h, ih]

theorem Memory.read_write_other (m : List Host.Cell) {a b : Nat} (v : Byte) (h : b ≠ a) :
    Memory.read (Memory.write m a v) b = Memory.read m b := by
  induction m with
  | nil => simp [Memory.write, Memory.read, h.symm]
  | cons x m ih =>
    unfold Memory.write
    split
    · simp [Memory.read, h.symm]
    · split
      · rename_i e
        subst e
        simp [Memory.read, h.symm]
      · simp [Memory.read, ih]

theorem Memory.read_write (m : List Host.Cell) (a b : Nat) (v : Byte) :
    Memory.read (Memory.write m a v) b = if b = a then some v else Memory.read m b := by
  split
  · subst b; exact Memory.read_write_same m a v
  · exact Memory.read_write_other m v ‹_›

/-- A write lists only the address written and those listed before. -/
theorem Memory.mem_write {m : List Host.Cell} {a : Nat} {v : Byte} {x : Host.Cell}
    (h : x ∈ Memory.write m a v) : x = (a, v) ∨ x ∈ m := by
  induction m with
  | nil => simpa [Memory.write] using h
  | cons y m ih =>
    unfold Memory.write at h
    split at h
    · simpa using h
    · split at h
      · simp only [List.mem_cons] at h ⊢
        tauto
      · simp only [List.mem_cons] at h ⊢
        rcases h with h | h
        · tauto
        · have := ih h
          tauto

theorem Memory.wf_nil : Memory.wf [] := ⟨List.Pairwise.nil, fun _ h => nomatch h⟩

/-- Every write inside MEM_SIZE keeps the canonical form. -/
theorem Memory.wf_write {m : List Host.Cell} (hm : Memory.wf m) {a : Nat} (ha : a < Config.MEM_SIZE) (v : Byte) :
    Memory.wf (Memory.write m a v) := by
  refine ⟨?_, fun x hx => (Memory.mem_write hx).elim (fun e => e ▸ ha) (hm.2 x)⟩
  obtain ⟨hp, -⟩ := hm
  induction m with
  | nil => simp [Memory.write]
  | cons y m ih =>
    obtain ⟨hy, hp⟩ := List.pairwise_cons.1 hp
    unfold Memory.write
    split
    · rename_i hlt
      refine List.pairwise_cons.2 ⟨fun z hz => ?_, List.pairwise_cons.2 ⟨hy, hp⟩⟩
      rcases List.mem_cons.1 hz with rfl | hz
      · exact hlt
      · exact hlt.trans (hy z hz)
    · split
      · rename_i heq
        exact List.pairwise_cons.2 ⟨fun z hz => heq ▸ hy z hz, hp⟩
      · rename_i hge hne
        refine List.pairwise_cons.2 ⟨fun z hz => ?_, ih hp⟩
        rcases Memory.mem_write hz with rfl | hz
        · exact lt_of_le_of_ne (not_lt.1 hge) hne
        · exact hy z hz

theorem memWrite_wf {m : List Host.Cell} (hm : Memory.wf m) (p : Ptr) (v : Byte) : Memory.wf (memWrite m p v) :=
  Memory.wf_write hm p.isLt v

theorem memRead_memWrite (m : List Host.Cell) (p q : Ptr) (v free : Byte) :
    memRead (memWrite m p v) q free = if q = p then v else memRead m q free := by
  simp only [memRead, memWrite, Memory.read_write, BitVec.toNat_inj]
  split <;> simp

/-! ## Streams (R95, R99) -/

theorem readBuffer_length (r : DevRegs) (m : List Host.Cell) (n : Nat) (p : Ptr) (d : Nat) :
    (readBuffer r m n p d).data.length = n := by
  induction n generalizing p d with
  | zero => rfl
  | succ n ih => simp [readBuffer, ih]

theorem readBuffer_ptr (r : DevRegs) (m : List Host.Cell) (n : Nat) (p : Ptr) (d : Nat) :
    (readBuffer r m n p d).ptr = (advanceRead r)^[n] p := by
  induction n generalizing p d with
  | zero => rfl
  | succ n ih => simp [readBuffer, ih]

/-- The k-th byte of a stream is the memory byte at the pointer advanced k times, or the free value of its draw. -/
theorem readBuffer_get (r : DevRegs) (m : List Host.Cell) (n : Nat) (p : Ptr) (d k : Nat) (hk : k < n) :
    (readBuffer r m n p d).data[k]? = some (memRead m ((advanceRead r)^[k] p) (Config.freeByte (d + k))) := by
  induction n generalizing p d k with
  | zero => omega
  | succ n ih =>
    cases k with
    | zero => simp [readBuffer]
    | succ k => simp [readBuffer, ih _ _ k (by omega), Nat.add_right_comm, Nat.add_assoc]

theorem writeBuffer_wf (r : DevRegs) (bs : List Byte) {m : List Host.Cell} (hm : Memory.wf m) (p : Ptr) :
    Memory.wf (writeBuffer r bs m p).mem := by
  induction bs generalizing m p with
  | nil => exact hm
  | cons b bs ih => exact ih (memWrite_wf hm p b) _

theorem writeBuffer_ptr (r : DevRegs) (bs : List Byte) (m : List Host.Cell) (p : Ptr) :
    (writeBuffer r bs m p).ptr = (advanceWrite r)^[bs.length] p := by
  induction bs generalizing m p with
  | nil => rfl
  | cons b bs ih => simp [writeBuffer, ih]

/-- A stream of writes leaves every address it does not reach. -/
theorem writeBuffer_other (r : DevRegs) (bs : List Byte) (m : List Host.Cell) (p : Ptr) (a : Nat)
    (h : ∀ k < bs.length, ((advanceWrite r)^[k] p).toNat ≠ a) :
    Memory.read (writeBuffer r bs m p).mem a = Memory.read m a := by
  induction bs generalizing m p with
  | nil => rfl
  | cons b bs ih =>
    rw [writeBuffer, ih]
    · exact Memory.read_write_other _ _ (Ne.symm (h 0 (by simp)))
    · intro k hk
      simpa using h (k + 1) (by simpa using hk)

theorem writeRing_wf (g : Ring) (p : Nat) (bs : List Byte) (i : Nat) {m : List Host.Cell} (hm : Memory.wf m)
    (hg : ∀ k, g.add p k < Config.MEM_SIZE) : Memory.wf (writeRing g p bs i m) := by
  induction bs generalizing m i with
  | nil => exact hm
  | cons b bs ih => exact ih _ (Memory.wf_write hm (hg i) b)

theorem writeRing_other (g : Ring) (p : Nat) (bs : List Byte) (i : Nat) (m : List Host.Cell) (a : Nat)
    (h : ∀ k < bs.length, g.add p (i + k) ≠ a) :
    Memory.read (writeRing g p bs i m) a = Memory.read m a := by
  induction bs generalizing m i with
  | nil => rfl
  | cons b bs ih =>
    rw [writeRing, ih]
    · exact Memory.read_write_other _ _ (Ne.symm (by simpa using h 0 (by simp)))
    · intro k hk
      simpa [Nat.add_assoc, Nat.add_comm 1] using h (k + 1) (by simpa using hk)

end Sys2Proof.Machine
end

