-- ==== Sys2Proof/Laws/State.lean ====
section
/-! SUPPORT. One lemma per field per update of the state, true by rfl, so that no later proof unfolds a record update. -/

namespace Sys2Proof.Machine

/-! `raise e` (R155). -/

@[simp] theorem raise_cfg (e : Err) (s : State) : (raise e s).cfg = s.cfg := rfl
@[simp] theorem raise_dev (e : Err) (s : State) : (raise e s).dev = s.dev := rfl
@[simp] theorem raise_devSettling (e : Err) (s : State) : (raise e s).devSettling = s.devSettling := rfl
@[simp] theorem raise_bus (e : Err) (s : State) : (raise e s).bus = s.bus := rfl
@[simp] theorem raise_agenda (e : Err) (s : State) : (raise e s).agenda = s.agenda := rfl
@[simp] theorem raise_draws (e : Err) (s : State) : (raise e s).draws = s.draws := rfl
@[simp] theorem raise_cs (e : Err) (s : State) : (raise e s).blk.cs = s.blk.cs := rfl
@[simp] theorem raise_op (e : Err) (s : State) : (raise e s).blk.op = none := rfl
@[simp] theorem raise_step (e : Err) (s : State) : (raise e s).blk.step = s.blk.step := rfl
@[simp] theorem raise_physt (e : Err) (s : State) : (raise e s).blk.physt = .idle := rfl
@[simp] theorem raise_rxst (e : Err) (s : State) : (raise e s).blk.rxst = .idle := rfl
@[simp] theorem raise_npp (e : Err) (s : State) : (raise e s).blk.npp = s.blk.npp := rfl
@[simp] theorem raise_flen (e : Err) (s : State) : (raise e s).blk.flen = s.blk.flen := rfl
@[simp] theorem raise_rsv (e : Err) (s : State) : (raise e s).blk.rsv = s.blk.rsv := rfl
@[simp] theorem raise_pollcnt (e : Err) (s : State) : (raise e s).blk.pollcnt = s.blk.pollcnt := rfl
@[simp] theorem raise_settling (e : Err) (s : State) : (raise e s).blk.settling = s.blk.settling := rfl
@[simp] theorem raise_err (e : Err) (s : State) : (raise e s).blk.err = e := rfl
@[simp] theorem raise_faults (e : Err) (s : State) : (raise e s).blk.faults = s.blk.faults := rfl
@[simp] theorem raise_buf (e : Err) (s : State) : (raise e s).blk.buf = s.blk.buf := rfl
@[simp] theorem raise_log (e : Err) (s : State) : (raise e s).blk.log = s.blk.log := rfl
@[simp] theorem raise_nppOut (e : Err) (s : State) : (raise e s).blk.nppOut = s.blk.nppOut := rfl
@[simp] theorem raise_ret (e : Err) (s : State) : (raise e s).blk.ret = .none := rfl
@[simp] theorem raise_rx (e : Err) (s : State) : (raise e s).blk.rx = s.blk.rx := rfl
@[simp] theorem raise_low (e : Err) (s : State) : (raise e s).blk.low = s.blk.low := rfl

/-! `finish v` (R18). -/

@[simp] theorem finish_cfg (v : Value) (s : State) : (finish v s).cfg = s.cfg := rfl
@[simp] theorem finish_dev (v : Value) (s : State) : (finish v s).dev = s.dev := rfl
@[simp] theorem finish_devSettling (v : Value) (s : State) : (finish v s).devSettling = s.devSettling := rfl
@[simp] theorem finish_bus (v : Value) (s : State) : (finish v s).bus = s.bus := rfl
@[simp] theorem finish_agenda (v : Value) (s : State) : (finish v s).agenda = s.agenda := rfl
@[simp] theorem finish_draws (v : Value) (s : State) : (finish v s).draws = s.draws := rfl
@[simp] theorem finish_cs (v : Value) (s : State) : (finish v s).blk.cs = s.blk.cs := rfl
@[simp] theorem finish_op (v : Value) (s : State) : (finish v s).blk.op = none := rfl
@[simp] theorem finish_step (v : Value) (s : State) : (finish v s).blk.step = s.blk.step := rfl
@[simp] theorem finish_physt (v : Value) (s : State) : (finish v s).blk.physt = .idle := rfl
@[simp] theorem finish_rxst (v : Value) (s : State) : (finish v s).blk.rxst = .idle := rfl
@[simp] theorem finish_npp (v : Value) (s : State) : (finish v s).blk.npp = s.blk.npp := rfl
@[simp] theorem finish_flen (v : Value) (s : State) : (finish v s).blk.flen = s.blk.flen := rfl
@[simp] theorem finish_rsv (v : Value) (s : State) : (finish v s).blk.rsv = s.blk.rsv := rfl
@[simp] theorem finish_pollcnt (v : Value) (s : State) : (finish v s).blk.pollcnt = s.blk.pollcnt := rfl
@[simp] theorem finish_settling (v : Value) (s : State) : (finish v s).blk.settling = s.blk.settling := rfl
@[simp] theorem finish_err (v : Value) (s : State) : (finish v s).blk.err = .ok := rfl
@[simp] theorem finish_faults (v : Value) (s : State) : (finish v s).blk.faults = s.blk.faults := rfl
@[simp] theorem finish_buf (v : Value) (s : State) : (finish v s).blk.buf = s.blk.buf := rfl
@[simp] theorem finish_log (v : Value) (s : State) : (finish v s).blk.log = s.blk.log := rfl
@[simp] theorem finish_nppOut (v : Value) (s : State) : (finish v s).blk.nppOut = s.blk.nppOut := rfl
@[simp] theorem finish_ret (v : Value) (s : State) : (finish v s).blk.ret = v := rfl
@[simp] theorem finish_rx (v : Value) (s : State) : (finish v s).blk.rx = s.blk.rx := rfl
@[simp] theorem finish_low (v : Value) (s : State) : (finish v s).blk.low = s.blk.low := rfl

/-! `recordFault f` (R161). -/

@[simp] theorem recordFault_cfg (f : ModelFault) (s : State) : (recordFault f s).cfg = s.cfg := rfl
@[simp] theorem recordFault_dev (f : ModelFault) (s : State) : (recordFault f s).dev = s.dev := rfl
@[simp] theorem recordFault_devSettling (f : ModelFault) (s : State) : (recordFault f s).devSettling = s.devSettling := rfl
@[simp] theorem recordFault_bus (f : ModelFault) (s : State) : (recordFault f s).bus = s.bus := rfl
@[simp] theorem recordFault_agenda (f : ModelFault) (s : State) : (recordFault f s).agenda = s.agenda := rfl
@[simp] theorem recordFault_draws (f : ModelFault) (s : State) : (recordFault f s).draws = s.draws := rfl
@[simp] theorem recordFault_cs (f : ModelFault) (s : State) : (recordFault f s).blk.cs = s.blk.cs := rfl
@[simp] theorem recordFault_op (f : ModelFault) (s : State) : (recordFault f s).blk.op = s.blk.op := rfl
@[simp] theorem recordFault_step (f : ModelFault) (s : State) : (recordFault f s).blk.step = s.blk.step := rfl
@[simp] theorem recordFault_physt (f : ModelFault) (s : State) : (recordFault f s).blk.physt = s.blk.physt := rfl
@[simp] theorem recordFault_rxst (f : ModelFault) (s : State) : (recordFault f s).blk.rxst = s.blk.rxst := rfl
@[simp] theorem recordFault_npp (f : ModelFault) (s : State) : (recordFault f s).blk.npp = s.blk.npp := rfl
@[simp] theorem recordFault_flen (f : ModelFault) (s : State) : (recordFault f s).blk.flen = s.blk.flen := rfl
@[simp] theorem recordFault_rsv (f : ModelFault) (s : State) : (recordFault f s).blk.rsv = s.blk.rsv := rfl
@[simp] theorem recordFault_pollcnt (f : ModelFault) (s : State) : (recordFault f s).blk.pollcnt = s.blk.pollcnt := rfl
@[simp] theorem recordFault_settling (f : ModelFault) (s : State) : (recordFault f s).blk.settling = s.blk.settling := rfl
@[simp] theorem recordFault_err (f : ModelFault) (s : State) : (recordFault f s).blk.err = s.blk.err := rfl
@[simp] theorem recordFault_faults (f : ModelFault) (s : State) : (recordFault f s).blk.faults = insertFault s.blk.faults f := rfl
@[simp] theorem recordFault_buf (f : ModelFault) (s : State) : (recordFault f s).blk.buf = s.blk.buf := rfl
@[simp] theorem recordFault_log (f : ModelFault) (s : State) : (recordFault f s).blk.log = s.blk.log := rfl
@[simp] theorem recordFault_nppOut (f : ModelFault) (s : State) : (recordFault f s).blk.nppOut = s.blk.nppOut := rfl
@[simp] theorem recordFault_ret (f : ModelFault) (s : State) : (recordFault f s).blk.ret = s.blk.ret := rfl
@[simp] theorem recordFault_rx (f : ModelFault) (s : State) : (recordFault f s).blk.rx = s.blk.rx := rfl
@[simp] theorem recordFault_low (f : ModelFault) (s : State) : (recordFault f s).blk.low = s.blk.low := rfl

/-! `beginFrame` (R14). -/

@[simp] theorem beginFrame_cfg (s : State) : (beginFrame s).cfg = s.cfg := rfl
@[simp] theorem beginFrame_dev (s : State) : (beginFrame s).dev = s.dev := rfl
@[simp] theorem beginFrame_devSettling (s : State) : (beginFrame s).devSettling = s.devSettling := rfl
@[simp] theorem beginFrame_bus (s : State) : (beginFrame s).bus = s.bus := rfl
@[simp] theorem beginFrame_agenda (s : State) : (beginFrame s).agenda = s.agenda := rfl
@[simp] theorem beginFrame_draws (s : State) : (beginFrame s).draws = s.draws := rfl
@[simp] theorem beginFrame_cs (s : State) : (beginFrame s).blk.cs = true := rfl
@[simp] theorem beginFrame_op (s : State) : (beginFrame s).blk.op = s.blk.op := rfl
@[simp] theorem beginFrame_step (s : State) : (beginFrame s).blk.step = s.blk.step := rfl
@[simp] theorem beginFrame_physt (s : State) : (beginFrame s).blk.physt = s.blk.physt := rfl
@[simp] theorem beginFrame_rxst (s : State) : (beginFrame s).blk.rxst = s.blk.rxst := rfl
@[simp] theorem beginFrame_npp (s : State) : (beginFrame s).blk.npp = s.blk.npp := rfl
@[simp] theorem beginFrame_flen (s : State) : (beginFrame s).blk.flen = s.blk.flen := rfl
@[simp] theorem beginFrame_rsv (s : State) : (beginFrame s).blk.rsv = s.blk.rsv := rfl
@[simp] theorem beginFrame_pollcnt (s : State) : (beginFrame s).blk.pollcnt = s.blk.pollcnt := rfl
@[simp] theorem beginFrame_settling (s : State) : (beginFrame s).blk.settling = s.blk.settling := rfl
@[simp] theorem beginFrame_err (s : State) : (beginFrame s).blk.err = s.blk.err := rfl
@[simp] theorem beginFrame_faults (s : State) : (beginFrame s).blk.faults = (if s.settling then insertFault s.blk.faults .settle else s.blk.faults) := rfl
@[simp] theorem beginFrame_buf (s : State) : (beginFrame s).blk.buf = s.blk.buf := rfl
@[simp] theorem beginFrame_log (s : State) : (beginFrame s).blk.log = s.blk.log := rfl
@[simp] theorem beginFrame_nppOut (s : State) : (beginFrame s).blk.nppOut = s.blk.nppOut := rfl
@[simp] theorem beginFrame_ret (s : State) : (beginFrame s).blk.ret = s.blk.ret := rfl
@[simp] theorem beginFrame_rx (s : State) : (beginFrame s).blk.rx = s.blk.rx := rfl
@[simp] theorem beginFrame_low (s : State) : (beginFrame s).blk.low = s.blk.low := rfl

/-! `endFrame` (R14). -/

@[simp] theorem endFrame_cfg (tx : List Byte) (out : DevOut) (s : State) : (endFrame tx out s).cfg = s.cfg := rfl
@[simp] theorem endFrame_dev (tx : List Byte) (out : DevOut) (s : State) : (endFrame tx out s).dev = out.dev := rfl
@[simp] theorem endFrame_devSettling (tx : List Byte) (out : DevOut) (s : State) : (endFrame tx out s).devSettling = s.devSettling := rfl
@[simp] theorem endFrame_bus (tx : List Byte) (out : DevOut) (s : State) : (endFrame tx out s).bus = s.bus := rfl
@[simp] theorem endFrame_agenda (tx : List Byte) (out : DevOut) (s : State) : (endFrame tx out s).agenda = s.agenda := rfl
@[simp] theorem endFrame_draws (tx : List Byte) (out : DevOut) (s : State) : (endFrame tx out s).draws = s.draws + tx.length := rfl
@[simp] theorem endFrame_cs (tx : List Byte) (out : DevOut) (s : State) : (endFrame tx out s).blk.cs = false := rfl
@[simp] theorem endFrame_op (tx : List Byte) (out : DevOut) (s : State) : (endFrame tx out s).blk.op = s.blk.op := rfl
@[simp] theorem endFrame_step (tx : List Byte) (out : DevOut) (s : State) : (endFrame tx out s).blk.step = s.blk.step := rfl
@[simp] theorem endFrame_physt (tx : List Byte) (out : DevOut) (s : State) : (endFrame tx out s).blk.physt = s.blk.physt := rfl
@[simp] theorem endFrame_rxst (tx : List Byte) (out : DevOut) (s : State) : (endFrame tx out s).blk.rxst = s.blk.rxst := rfl
@[simp] theorem endFrame_npp (tx : List Byte) (out : DevOut) (s : State) : (endFrame tx out s).blk.npp = s.blk.npp := rfl
@[simp] theorem endFrame_flen (tx : List Byte) (out : DevOut) (s : State) : (endFrame tx out s).blk.flen = s.blk.flen := rfl
@[simp] theorem endFrame_rsv (tx : List Byte) (out : DevOut) (s : State) : (endFrame tx out s).blk.rsv = s.blk.rsv := rfl
@[simp] theorem endFrame_pollcnt (tx : List Byte) (out : DevOut) (s : State) : (endFrame tx out s).blk.pollcnt = s.blk.pollcnt := rfl
@[simp] theorem endFrame_settling (tx : List Byte) (out : DevOut) (s : State) : (endFrame tx out s).blk.settling = s.blk.settling := rfl
@[simp] theorem endFrame_err (tx : List Byte) (out : DevOut) (s : State) : (endFrame tx out s).blk.err = s.blk.err := rfl
@[simp] theorem endFrame_faults (tx : List Byte) (out : DevOut) (s : State) : (endFrame tx out s).blk.faults = insertFaults s.blk.faults out.faults := rfl
@[simp] theorem endFrame_buf (tx : List Byte) (out : DevOut) (s : State) : (endFrame tx out s).blk.buf = s.blk.buf := rfl
@[simp] theorem endFrame_log (tx : List Byte) (out : DevOut) (s : State) : (endFrame tx out s).blk.log = s.blk.log ++ [⟨tx, out.rx⟩] := rfl
@[simp] theorem endFrame_nppOut (tx : List Byte) (out : DevOut) (s : State) : (endFrame tx out s).blk.nppOut = s.blk.nppOut := rfl
@[simp] theorem endFrame_ret (tx : List Byte) (out : DevOut) (s : State) : (endFrame tx out s).blk.ret = s.blk.ret := rfl
@[simp] theorem endFrame_rx (tx : List Byte) (out : DevOut) (s : State) : (endFrame tx out s).blk.rx = out.rx := rfl
@[simp] theorem endFrame_low (tx : List Byte) (out : DevOut) (s : State) : (endFrame tx out s).blk.low = s.blk.low := rfl

/-! `settle` (R148). -/

@[simp] theorem settle_cfg (s : State) : (settle s).cfg = s.cfg := rfl
@[simp] theorem settle_dev (s : State) : (settle s).dev = s.dev := rfl
@[simp] theorem settle_devSettling (s : State) : (settle s).devSettling = false := rfl
@[simp] theorem settle_bus (s : State) : (settle s).bus = s.bus := rfl
@[simp] theorem settle_agenda (s : State) : (settle s).agenda = s.agenda := rfl
@[simp] theorem settle_draws (s : State) : (settle s).draws = s.draws := rfl
@[simp] theorem settle_cs (s : State) : (settle s).blk.cs = s.blk.cs := rfl
@[simp] theorem settle_op (s : State) : (settle s).blk.op = s.blk.op := rfl
@[simp] theorem settle_step (s : State) : (settle s).blk.step = s.blk.step := rfl
@[simp] theorem settle_physt (s : State) : (settle s).blk.physt = s.blk.physt := rfl
@[simp] theorem settle_rxst (s : State) : (settle s).blk.rxst = s.blk.rxst := rfl
@[simp] theorem settle_npp (s : State) : (settle s).blk.npp = s.blk.npp := rfl
@[simp] theorem settle_flen (s : State) : (settle s).blk.flen = s.blk.flen := rfl
@[simp] theorem settle_rsv (s : State) : (settle s).blk.rsv = s.blk.rsv := rfl
@[simp] theorem settle_pollcnt (s : State) : (settle s).blk.pollcnt = s.blk.pollcnt := rfl
@[simp] theorem settle_settling (s : State) : (settle s).blk.settling = false := rfl
@[simp] theorem settle_err (s : State) : (settle s).blk.err = s.blk.err := rfl
@[simp] theorem settle_faults (s : State) : (settle s).blk.faults = s.blk.faults := rfl
@[simp] theorem settle_buf (s : State) : (settle s).blk.buf = s.blk.buf := rfl
@[simp] theorem settle_log (s : State) : (settle s).blk.log = s.blk.log := rfl
@[simp] theorem settle_nppOut (s : State) : (settle s).blk.nppOut = s.blk.nppOut := rfl
@[simp] theorem settle_ret (s : State) : (settle s).blk.ret = s.blk.ret := rfl
@[simp] theorem settle_rx (s : State) : (settle s).blk.rx = s.blk.rx := rfl
@[simp] theorem settle_low (s : State) : (settle s).blk.low = s.blk.low := rfl

/-! `onDevice` (R64). -/

@[simp] theorem onDevice_cfg (f : Device → Device) (s : State) : (onDevice f s).cfg = s.cfg := rfl
/-- What an engine's step makes of the device: its effect, or `any` in a device that dozes (R170). -/
theorem onDevice_dev (f : Device → Device) (s : State) :
    (onDevice f s).dev = if s.dozing then anyDevice s.draws else f s.dev := rfl
theorem onDevice_dev_awake {s : State} (h : pwrsv s.dev.regs = false) (f : Device → Device) :
    (onDevice f s).dev = f s.dev := by simp [onDevice, State.dozing, h]
@[simp] theorem onDevice_blk (f : Device → Device) (s : State) : (onDevice f s).blk = s.blk := rfl
@[simp] theorem onDevice_devSettling (f : Device → Device) (s : State) : (onDevice f s).devSettling = s.devSettling := rfl
@[simp] theorem onDevice_bus (f : Device → Device) (s : State) : (onDevice f s).bus = s.bus := rfl
@[simp] theorem onDevice_agenda (f : Device → Device) (s : State) : (onDevice f s).agenda = s.agenda := rfl
@[simp] theorem onDevice_draws (f : Device → Device) (s : State) : (onDevice f s).draws = s.draws + 1 := rfl
@[simp] theorem onDevice_cs (f : Device → Device) (s : State) : (onDevice f s).blk.cs = s.blk.cs := rfl
@[simp] theorem onDevice_op (f : Device → Device) (s : State) : (onDevice f s).blk.op = s.blk.op := rfl
@[simp] theorem onDevice_step (f : Device → Device) (s : State) : (onDevice f s).blk.step = s.blk.step := rfl
@[simp] theorem onDevice_physt (f : Device → Device) (s : State) : (onDevice f s).blk.physt = s.blk.physt := rfl
@[simp] theorem onDevice_rxst (f : Device → Device) (s : State) : (onDevice f s).blk.rxst = s.blk.rxst := rfl
@[simp] theorem onDevice_npp (f : Device → Device) (s : State) : (onDevice f s).blk.npp = s.blk.npp := rfl
@[simp] theorem onDevice_flen (f : Device → Device) (s : State) : (onDevice f s).blk.flen = s.blk.flen := rfl
@[simp] theorem onDevice_rsv (f : Device → Device) (s : State) : (onDevice f s).blk.rsv = s.blk.rsv := rfl
@[simp] theorem onDevice_pollcnt (f : Device → Device) (s : State) : (onDevice f s).blk.pollcnt = s.blk.pollcnt := rfl
@[simp] theorem onDevice_settling (f : Device → Device) (s : State) : (onDevice f s).blk.settling = s.blk.settling := rfl
@[simp] theorem onDevice_err (f : Device → Device) (s : State) : (onDevice f s).blk.err = s.blk.err := rfl
@[simp] theorem onDevice_faults (f : Device → Device) (s : State) : (onDevice f s).blk.faults = s.blk.faults := rfl
@[simp] theorem onDevice_buf (f : Device → Device) (s : State) : (onDevice f s).blk.buf = s.blk.buf := rfl
@[simp] theorem onDevice_log (f : Device → Device) (s : State) : (onDevice f s).blk.log = s.blk.log := rfl
@[simp] theorem onDevice_nppOut (f : Device → Device) (s : State) : (onDevice f s).blk.nppOut = s.blk.nppOut := rfl
@[simp] theorem onDevice_ret (f : Device → Device) (s : State) : (onDevice f s).blk.ret = s.blk.ret := rfl
@[simp] theorem onDevice_rx (f : Device → Device) (s : State) : (onDevice f s).blk.rx = s.blk.rx := rfl
@[simp] theorem onDevice_low (f : Device → Device) (s : State) : (onDevice f s).blk.low = s.blk.low := rfl

/-! `callerStore` (R27). -/

@[simp] theorem callerStore_cfg (k : Nat) (v : Byte) (s : State) : (callerStore k v s).cfg = s.cfg := rfl
@[simp] theorem callerStore_dev (k : Nat) (v : Byte) (s : State) : (callerStore k v s).dev = s.dev := rfl
@[simp] theorem callerStore_devSettling (k : Nat) (v : Byte) (s : State) : (callerStore k v s).devSettling = s.devSettling := rfl
@[simp] theorem callerStore_bus (k : Nat) (v : Byte) (s : State) : (callerStore k v s).bus = s.bus := rfl
@[simp] theorem callerStore_agenda (k : Nat) (v : Byte) (s : State) : (callerStore k v s).agenda = s.agenda := rfl
@[simp] theorem callerStore_draws (k : Nat) (v : Byte) (s : State) : (callerStore k v s).draws = s.draws := rfl
@[simp] theorem callerStore_cs (k : Nat) (v : Byte) (s : State) : (callerStore k v s).blk.cs = s.blk.cs := rfl
@[simp] theorem callerStore_op (k : Nat) (v : Byte) (s : State) : (callerStore k v s).blk.op = s.blk.op := rfl
@[simp] theorem callerStore_step (k : Nat) (v : Byte) (s : State) : (callerStore k v s).blk.step = s.blk.step := rfl
@[simp] theorem callerStore_physt (k : Nat) (v : Byte) (s : State) : (callerStore k v s).blk.physt = s.blk.physt := rfl
@[simp] theorem callerStore_rxst (k : Nat) (v : Byte) (s : State) : (callerStore k v s).blk.rxst = s.blk.rxst := rfl
@[simp] theorem callerStore_npp (k : Nat) (v : Byte) (s : State) : (callerStore k v s).blk.npp = s.blk.npp := rfl
@[simp] theorem callerStore_flen (k : Nat) (v : Byte) (s : State) : (callerStore k v s).blk.flen = s.blk.flen := rfl
@[simp] theorem callerStore_rsv (k : Nat) (v : Byte) (s : State) : (callerStore k v s).blk.rsv = s.blk.rsv := rfl
@[simp] theorem callerStore_pollcnt (k : Nat) (v : Byte) (s : State) : (callerStore k v s).blk.pollcnt = s.blk.pollcnt := rfl
@[simp] theorem callerStore_settling (k : Nat) (v : Byte) (s : State) : (callerStore k v s).blk.settling = s.blk.settling := rfl
@[simp] theorem callerStore_err (k : Nat) (v : Byte) (s : State) : (callerStore k v s).blk.err = s.blk.err := rfl
@[simp] theorem callerStore_faults (k : Nat) (v : Byte) (s : State) : (callerStore k v s).blk.faults = s.blk.faults := rfl
@[simp] theorem callerStore_buf (k : Nat) (v : Byte) (s : State) : (callerStore k v s).blk.buf = s.blk.buf.set k v := rfl
@[simp] theorem callerStore_log (k : Nat) (v : Byte) (s : State) : (callerStore k v s).blk.log = s.blk.log := rfl
@[simp] theorem callerStore_nppOut (k : Nat) (v : Byte) (s : State) : (callerStore k v s).blk.nppOut = s.blk.nppOut := rfl
@[simp] theorem callerStore_ret (k : Nat) (v : Byte) (s : State) : (callerStore k v s).blk.ret = s.blk.ret := rfl
@[simp] theorem callerStore_rx (k : Nat) (v : Byte) (s : State) : (callerStore k v s).blk.rx = s.blk.rx := rfl
@[simp] theorem callerStore_low (k : Nat) (v : Byte) (s : State) : (callerStore k v s).blk.low = s.blk.low := rfl

/-! `latchHeader` (R130). -/

@[simp] theorem latchHeader_cfg (h : List Byte) (s : State) : (latchHeader h s).cfg = s.cfg := rfl
@[simp] theorem latchHeader_dev (h : List Byte) (s : State) : (latchHeader h s).dev = s.dev := rfl
@[simp] theorem latchHeader_devSettling (h : List Byte) (s : State) : (latchHeader h s).devSettling = s.devSettling := rfl
@[simp] theorem latchHeader_bus (h : List Byte) (s : State) : (latchHeader h s).bus = s.bus := rfl
@[simp] theorem latchHeader_agenda (h : List Byte) (s : State) : (latchHeader h s).agenda = s.agenda := rfl
@[simp] theorem latchHeader_draws (h : List Byte) (s : State) : (latchHeader h s).draws = s.draws := rfl
@[simp] theorem latchHeader_cs (h : List Byte) (s : State) : (latchHeader h s).blk.cs = s.blk.cs := rfl
@[simp] theorem latchHeader_op (h : List Byte) (s : State) : (latchHeader h s).blk.op = s.blk.op := rfl
@[simp] theorem latchHeader_step (h : List Byte) (s : State) : (latchHeader h s).blk.step = s.blk.step := rfl
@[simp] theorem latchHeader_physt (h : List Byte) (s : State) : (latchHeader h s).blk.physt = s.blk.physt := rfl
@[simp] theorem latchHeader_rxst (h : List Byte) (s : State) : (latchHeader h s).blk.rxst = s.blk.rxst := rfl
@[simp] theorem latchHeader_npp (h : List Byte) (s : State) : (latchHeader h s).blk.npp = le16 (h.getD 0 0) (h.getD 1 0) := rfl
@[simp] theorem latchHeader_flen (h : List Byte) (s : State) : (latchHeader h s).blk.flen = le16 (h.getD 2 0) (h.getD 3 0) := rfl
@[simp] theorem latchHeader_rsv (h : List Byte) (s : State) : (latchHeader h s).blk.rsv = le16 (h.getD 4 0) (h.getD 5 0) := rfl
@[simp] theorem latchHeader_pollcnt (h : List Byte) (s : State) : (latchHeader h s).blk.pollcnt = s.blk.pollcnt := rfl
@[simp] theorem latchHeader_settling (h : List Byte) (s : State) : (latchHeader h s).blk.settling = s.blk.settling := rfl
@[simp] theorem latchHeader_err (h : List Byte) (s : State) : (latchHeader h s).blk.err = s.blk.err := rfl
@[simp] theorem latchHeader_faults (h : List Byte) (s : State) : (latchHeader h s).blk.faults = s.blk.faults := rfl
@[simp] theorem latchHeader_buf (h : List Byte) (s : State) : (latchHeader h s).blk.buf = overlay s.blk.buf h := rfl
@[simp] theorem latchHeader_log (h : List Byte) (s : State) : (latchHeader h s).blk.log = s.blk.log := rfl
@[simp] theorem latchHeader_nppOut (h : List Byte) (s : State) : (latchHeader h s).blk.nppOut = le16 (h.getD 0 0) (h.getD 1 0) := rfl
@[simp] theorem latchHeader_ret (h : List Byte) (s : State) : (latchHeader h s).blk.ret = s.blk.ret := rfl
@[simp] theorem latchHeader_rx (h : List Byte) (s : State) : (latchHeader h s).blk.rx = s.blk.rx := rfl
@[simp] theorem latchHeader_low (h : List Byte) (s : State) : (latchHeader h s).blk.low = s.blk.low := rfl

/-! `rxOverflow` (R135). -/

@[simp] theorem rxOverflow_cfg (s : State) : (rxOverflow s).cfg = s.cfg := rfl
@[simp] theorem rxOverflow_dev (s : State) : (rxOverflow s).dev = s.dev := rfl
@[simp] theorem rxOverflow_devSettling (s : State) : (rxOverflow s).devSettling = s.devSettling := rfl
@[simp] theorem rxOverflow_bus (s : State) : (rxOverflow s).bus = s.bus := rfl
@[simp] theorem rxOverflow_agenda (s : State) : (rxOverflow s).agenda = s.agenda := rfl
@[simp] theorem rxOverflow_draws (s : State) : (rxOverflow s).draws = s.draws + 1 := rfl
@[simp] theorem rxOverflow_cs (s : State) : (rxOverflow s).blk.cs = s.blk.cs := rfl
@[simp] theorem rxOverflow_op (s : State) : (rxOverflow s).blk.op = none := rfl
@[simp] theorem rxOverflow_step (s : State) : (rxOverflow s).blk.step = s.blk.step := rfl
@[simp] theorem rxOverflow_physt (s : State) : (rxOverflow s).blk.physt = .idle := rfl
@[simp] theorem rxOverflow_rxst (s : State) : (rxOverflow s).blk.rxst = .idle := rfl
@[simp] theorem rxOverflow_npp (s : State) : (rxOverflow s).blk.npp = s.blk.npp := rfl
@[simp] theorem rxOverflow_flen (s : State) : (rxOverflow s).blk.flen = s.blk.flen := rfl
@[simp] theorem rxOverflow_rsv (s : State) : (rxOverflow s).blk.rsv = s.blk.rsv := rfl
@[simp] theorem rxOverflow_pollcnt (s : State) : (rxOverflow s).blk.pollcnt = s.blk.pollcnt := rfl
@[simp] theorem rxOverflow_settling (s : State) : (rxOverflow s).blk.settling = s.blk.settling := rfl
@[simp] theorem rxOverflow_err (s : State) : (rxOverflow s).blk.err = Config.freeErr s.draws := rfl
@[simp] theorem rxOverflow_faults (s : State) : (rxOverflow s).blk.faults = insertFault s.blk.faults .rxOverflow := rfl
@[simp] theorem rxOverflow_buf (s : State) : (rxOverflow s).blk.buf = s.blk.buf := rfl
@[simp] theorem rxOverflow_log (s : State) : (rxOverflow s).blk.log = s.blk.log := rfl
@[simp] theorem rxOverflow_nppOut (s : State) : (rxOverflow s).blk.nppOut = s.blk.nppOut := rfl
@[simp] theorem rxOverflow_ret (s : State) : (rxOverflow s).blk.ret = .none := rfl
@[simp] theorem rxOverflow_rx (s : State) : (rxOverflow s).blk.rx = s.blk.rx := rfl
@[simp] theorem rxOverflow_low (s : State) : (rxOverflow s).blk.low = s.blk.low := rfl

/-! `blockReset` (R47, R171). -/

@[simp] theorem blockReset_cfg (s : State) : (blockReset s).cfg = s.cfg := rfl
@[simp] theorem blockReset_dev (s : State) : (blockReset s).dev = s.dev := rfl
@[simp] theorem blockReset_devSettling (s : State) : (blockReset s).devSettling = s.devSettling := rfl
@[simp] theorem blockReset_bus (s : State) : (blockReset s).bus = s.bus := rfl
@[simp] theorem blockReset_agenda (s : State) : (blockReset s).agenda = s.agenda := rfl
@[simp] theorem blockReset_draws (s : State) : (blockReset s).draws = s.draws + 3 := rfl
@[simp] theorem blockReset_cs (s : State) : (blockReset s).blk.cs = false := rfl
@[simp] theorem blockReset_op (s : State) : (blockReset s).blk.op = none := rfl
@[simp] theorem blockReset_step (s : State) : (blockReset s).blk.step = s.blk.step := rfl
@[simp] theorem blockReset_physt (s : State) : (blockReset s).blk.physt = .idle := rfl
@[simp] theorem blockReset_rxst (s : State) : (blockReset s).blk.rxst = .idle := rfl
@[simp] theorem blockReset_npp (s : State) : (blockReset s).blk.npp = Config.freeWord s.draws := rfl
@[simp] theorem blockReset_flen (s : State) : (blockReset s).blk.flen = Config.freeWord (s.draws + 1) := rfl
@[simp] theorem blockReset_rsv (s : State) : (blockReset s).blk.rsv = Config.freeWord (s.draws + 2) := rfl
@[simp] theorem blockReset_pollcnt (s : State) : (blockReset s).blk.pollcnt = 0 := rfl
@[simp] theorem blockReset_settling (s : State) : (blockReset s).blk.settling = false := rfl
@[simp] theorem blockReset_err (s : State) : (blockReset s).blk.err = .ok := rfl
@[simp] theorem blockReset_faults (s : State) : (blockReset s).blk.faults = [] := rfl
@[simp] theorem blockReset_buf (s : State) : (blockReset s).blk.buf = s.blk.buf := rfl
@[simp] theorem blockReset_log (s : State) : (blockReset s).blk.log = [] := rfl
@[simp] theorem blockReset_nppOut (s : State) : (blockReset s).blk.nppOut = s.blk.nppOut := rfl
@[simp] theorem blockReset_ret (s : State) : (blockReset s).blk.ret = s.blk.ret := rfl
@[simp] theorem blockReset_rx (s : State) : (blockReset s).blk.rx = s.blk.rx := rfl
@[simp] theorem blockReset_low (s : State) : (blockReset s).blk.low = s.blk.low := rfl

/-! `powerOn` (R171, R173). -/

@[simp] theorem powerOn_cfg (s : State) : (powerOn s).cfg = s.cfg := rfl
@[simp] theorem powerOn_blk (s : State) : (powerOn s).blk = s.blk := rfl
@[simp] theorem powerOn_dev (s : State) : (powerOn s).dev = resetDevice s.cfg s.draws := rfl
@[simp] theorem powerOn_devSettling (s : State) : (powerOn s).devSettling = s.devSettling := rfl
@[simp] theorem powerOn_bus (s : State) : (powerOn s).bus = s.bus := rfl
@[simp] theorem powerOn_agenda (s : State) : (powerOn s).agenda = s.agenda := rfl
@[simp] theorem powerOn_draws (s : State) : (powerOn s).draws = s.draws + 1 := rfl

/-- With PWRSV clear the device works (R170). -/
theorem dozing_awake {s : State} (h : pwrsv s.dev.regs = false) : s.dozing = false := by simp [State.dozing, h]

/-! Neither side settles: what `State.settling` says, and what leaves it alone (R88, R105). -/

theorem settling_eq_false {s : State} : s.settling = false ↔ s.blk.settling = false ∧ s.devSettling = false := by
  simp [State.settling]

theorem settling_eq_true {s : State} : s.settling = true ↔ s.blk.settling = true ∨ s.devSettling = true := by
  simp [State.settling]

@[simp] theorem settling_raise (e : Err) (s : State) : (raise e s).settling = s.settling := rfl
@[simp] theorem settling_finish (v : Value) (s : State) : (finish v s).settling = s.settling := rfl
@[simp] theorem settling_recordFault (f : ModelFault) (s : State) : (recordFault f s).settling = s.settling := rfl
@[simp] theorem settling_beginFrame (s : State) : (beginFrame s).settling = s.settling := rfl
@[simp] theorem settling_endFrame (tx : List Byte) (out : DevOut) (s : State) : (endFrame tx out s).settling = s.settling := rfl
@[simp] theorem settling_onDevice (f : Device → Device) (s : State) : (onDevice f s).settling = s.settling := rfl
@[simp] theorem settling_callerStore (k : Nat) (v : Byte) (s : State) : (callerStore k v s).settling = s.settling := rfl
@[simp] theorem settling_latchHeader (h : List Byte) (s : State) : (latchHeader h s).settling = s.settling := rfl
@[simp] theorem settling_rxOverflow (s : State) : (rxOverflow s).settling = s.settling := rfl
@[simp] theorem settling_powerOn (s : State) : (powerOn s).settling = s.settling := rfl
@[simp] theorem settling_settle (s : State) : (settle s).settling = false := rfl
@[simp] theorem settling_blockReset (s : State) : (blockReset s).settling = s.devSettling := by simp [State.settling]

end Sys2Proof.Machine
end

