-- ==== Sys2Proof/Laws/Exec.lean ====
section
/-! SUPPORT. What a frame and a transaction can do, said once. -/

namespace Sys2Proof.Machine

/-! ## Model faults -/

theorem insertFault_nodup {fs : List ModelFault} (h : fs.Nodup) (f : ModelFault) : (insertFault fs f).Nodup := by
  unfold insertFault
  split
  · exact h
  · rename_i hf
    exact List.nodup_append.2 ⟨h, List.nodup_singleton f, fun x hx y hy => by
      rw [List.mem_singleton.1 hy]
      exact fun e => hf (e ▸ hx)⟩

theorem mem_insertFault {fs : List ModelFault} {f g : ModelFault} : g ∈ insertFault fs f ↔ g ∈ fs ∨ g = f := by
  unfold insertFault
  split
  · rename_i hf
    exact ⟨.inl, fun h => h.elim id (fun e => e ▸ hf)⟩
  · simp

theorem insertFaults_nodup {fs : List ModelFault} (h : fs.Nodup) (new : List ModelFault) :
    (insertFaults fs new).Nodup := by
  induction new generalizing fs with
  | nil => exact h
  | cons f new ih => exact ih (insertFault_nodup h f)

theorem mem_insertFaults {fs new : List ModelFault} {g : ModelFault} :
    g ∈ insertFaults fs new ↔ g ∈ fs ∨ g ∈ new := by
  induction new generalizing fs with
  | nil => simp [insertFaults]
  | cons f new ih =>
    simp only [insertFaults, List.foldl_cons] at ih ⊢
    rw [ih, mem_insertFault, List.mem_cons, or_assoc]

@[simp] theorem insertFaults_nil (fs : List ModelFault) : insertFaults fs [] = fs := rfl

@[simp] theorem insertFaults_one (fs : List ModelFault) (f : ModelFault) : insertFaults fs [f] = insertFault fs f := rfl

/-! ## Frames -/

@[simp] theorem freeBytes_length (d n : Nat) : (freeBytes d n).length = n := by
  induction n generalizing d with
  | zero => rfl
  | succ n ih => simp [freeBytes, ih]

@[simp] theorem anyResponse_length (tx : List Byte) (s : State) : (anyResponse tx s).length = tx.length := by
  simp [anyResponse]

/-- The one model fault the beginning of a frame can record (R88, R105). -/
theorem mem_beginFrame_faults {s : State} {f : ModelFault} :
    f ∈ (beginFrame s).blk.faults ↔ f ∈ s.blk.faults ∨ (f = .settle ∧ s.settling = true) := by
  simp only [beginFrame_faults]
  split <;> simp_all [mem_insertFault]

theorem anyEffect_eq_false {tx : List Byte} {s : State} :
    s.anyEffect tx = false ↔ s.settling = false ∧ (tx = encode .src ∨ s.dozing = false) := by
  simp [State.anyEffect]
  tauto

theorem anyEffect_eq_true {tx : List Byte} {s : State} :
    s.anyEffect tx = true ↔ s.settling = true ∨ (tx ≠ encode .src ∧ s.dozing = true) := by
  simp [State.anyEffect]

/-- A device that works and is not settling gives every frame its effect. -/
theorem anyEffect_ready {s : State} (h : s.BusReady) (tx : List Byte) : s.anyEffect tx = false :=
  anyEffect_eq_false.2 ⟨h.2.1, .inr (dozing_awake h.2.2)⟩

/-- A frame that gets through and whose effect is not `any`: the device's effect, and the log (R14). -/
theorem transact_through {s : State} {tx : List Byte} (hb : s.bus = none) (h : s.anyEffect tx = false)
    (out : DevOut) : transact tx out s = endFrame tx out s := by
  simp [transact, hb, h, (anyEffect_eq_false.1 h).1, beginFrame, endFrame]

theorem transact_ready {s : State} (h : s.BusReady) (tx : List Byte) (out : DevOut) :
    transact tx out s = endFrame tx out s :=
  transact_through h.1 (anyEffect_ready h tx) out

/-- A frame the bus fails: BusFault (R156). -/
theorem transact_failed {s : State} {received : List Byte} (h : s.bus = some received) (tx : List Byte)
    (out : DevOut) :
    transact tx out s =
      raise .busFault { endFrame tx (failedOut tx received s) (beginFrame s) with bus := none } := by
  simp [transact, h]

/-- A frame during the settling delay, or one but SRC to a device that dozes: its effect is `any`, its model faults are
recorded (R105, R170). -/
theorem transact_any {s : State} {tx : List Byte} (hb : s.bus = none) (h : s.anyEffect tx = true) (out : DevOut) :
    transact tx out s = endFrame tx (anyOut tx out.faults s) (beginFrame s) := by
  simp [transact, hb, h]

/-- Everything a frame can do. -/
theorem transact_cases (tx : List Byte) (out : DevOut) (s : State) :
    (∃ received, s.bus = some received ∧ transact tx out s =
      raise .busFault { endFrame tx (failedOut tx received s) (beginFrame s) with bus := none }) ∨
    (s.bus = none ∧ s.anyEffect tx = true ∧
      transact tx out s = endFrame tx (anyOut tx out.faults s) (beginFrame s)) ∨
    ((s.bus = none ∧ s.anyEffect tx = false) ∧ transact tx out s = endFrame tx out s) := by
  rcases hb : s.bus with _ | received
  · rcases h : s.anyEffect tx
    · exact .inr (.inr ⟨⟨rfl, rfl⟩, transact_through hb h out⟩)
    · exact .inr (.inl ⟨rfl, rfl, transact_any hb h out⟩)
  · exact .inl ⟨received, rfl, transact_failed hb tx out⟩

/-! ## Transactions -/

/-- What the device makes of each transaction when the frame gets through. -/
def outOf (i : Instr) (s : State) : DevOut :=
  match i with
  | .rcr a fill => rcrOut a fill s
  | .rbm fill => rbmOut fill.length s
  | .wcr a v => writeOut (devWrite s.cfg s.draws a v s.dev) (encode (.wcr a v)) s
  | .wbm data => wbmOut data (encode (.wbm data)) s
  | .bfs a m => bitFieldOut a (devStored s.dev.regs a ||| m) (encode (.bfs a m)) s
  | .bfc a m => bitFieldOut a (devStored s.dev.regs a &&& ~~~m) (encode (.bfc a m)) s
  | .src => srcOut (encode .src) s

/-- The state after a transaction. -/
def execState (i : Instr) (s : State) : State :=
  match i with
  | .src => beginSettling s (transact (encode .src) (outOf .src s) s)
  | i => transact (encode i) (outOf i s) s

/-- Every transaction answers a next state. -/
theorem exec_eq (i : Instr) (s : State) : exec i s = .next (execState i s) := by cases i <;> rfl

theorem exec_next {i : Instr} {s t : State} (h : exec i s = .next t) : t = execState i s := by
  rw [exec_eq] at h
  exact (Host.Outcome.next.inj h).symm

theorem execState_of_ne_src {i : Instr} (h : i ≠ .src) (s : State) :
    execState i s = transact (encode i) (outOf i s) s := by
  cases i <;> first | rfl | exact absurd rfl h

/-- A transaction that gets through, other than SRC (R88). -/
theorem execState_ready {i : Instr} (hi : i ≠ .src) {s : State} (h : s.BusReady) :
    execState i s = endFrame (encode i) (outOf i s) s := by
  rw [execState_of_ne_src hi, transact_ready h]

/-- SRC that gets through, whatever state the device is in (R104, R105). -/
theorem execState_src_free {s : State} (h : s.BusFree) :
    execState .src s =
      { endFrame [0xFF] (outOf .src s) s with
        blk := { (endFrame [0xFF] (outOf .src s) s).blk with settling := true }
        devSettling := true } := by
  simp only [execState, transact_through h.1 (anyEffect_eq_false.2 ⟨h.2, .inl rfl⟩), beginSettling, h.1]
  rfl

/-- SRC differs from its frame in x[SETTLING] and the device's `settling` only (R104, R105). -/
theorem execState_src (s : State) :
    execState .src s = transact [0xFF] (outOf .src s) s ∨
    execState .src s =
      { transact [0xFF] (outOf .src s) s with
        blk := { (transact [0xFF] (outOf .src s) s).blk with settling := true }
        devSettling := true } := by
  simp only [execState, beginSettling]
  split
  · exact .inl rfl
  · exact .inr rfl

/-! ## Device writes -/

/-- A device write touches neither buffer memory, nor the PHY registers, nor CLKRDY (R91). -/
theorem phyStart_fields (n : Nat) (o : PhyOp) (d : Device) :
    (phyStart n o d).dev.mem = d.mem ∧ (phyStart n o d).dev.pr = d.pr ∧ (phyStart n o d).dev.clkrdy = d.clkrdy ∧
      (phyStart n o d).dev.regs = d.regs := by
  unfold phyStart
  split <;> simp

theorem devWrite_fields (c : Config) (n : Nat) (a : Addr) (v : Byte) (d : Device) :
    (devWrite c n a v d).dev.mem = d.mem ∧ (devWrite c n a v d).dev.pr = d.pr ∧
      (devWrite c n a v d).dev.clkrdy = d.clkrdy := by
  unfold devWrite
  dsimp only
  split
  case h_9 =>
    split
    · exact ⟨(phyStart_fields _ _ _).1, (phyStart_fields _ _ _).2.1, (phyStart_fields _ _ _).2.2.1⟩
    · simp
  case h_12 => exact ⟨(phyStart_fields _ _ _).1, (phyStart_fields _ _ _).2.1, (phyStart_fields _ _ _).2.2.1⟩
  all_goals simp

@[simp] theorem devWrite_mem (c : Config) (n : Nat) (a : Addr) (v : Byte) (d : Device) :
    (devWrite c n a v d).dev.mem = d.mem := (devWrite_fields c n a v d).1

@[simp] theorem devWrite_pr (c : Config) (n : Nat) (a : Addr) (v : Byte) (d : Device) :
    (devWrite c n a v d).dev.pr = d.pr := (devWrite_fields c n a v d).2.1

@[simp] theorem devWrite_clkrdy (c : Config) (n : Nat) (a : Addr) (v : Byte) (d : Device) :
    (devWrite c n a v d).dev.clkrdy = d.clkrdy := (devWrite_fields c n a v d).2.2

/-! ## Power save (R170) -/

/-- A PHY start leaves every register alone (R123). -/
@[simp] theorem phyStart_regs (n : Nat) (o : PhyOp) (d : Device) : (phyStart n o d).dev.regs = d.regs :=
  (phyStart_fields n o d).2.2.2

/-- Only a write that reaches ECON2 changes it (R91). -/
theorem devWrite_econ2 (c : Config) (n : Nat) (a : Addr) (v : Byte) (d : Device)
    (h : regAt (devLoc d.regs a) ≠ .econ2) : (devWrite c n a v d).dev.regs.econ2 = d.regs.econ2 := by
  unfold devWrite
  dsimp only
  split
  case h_1 => rename_i p _; cases p <;> rfl
  case h_2 => rename_i p _; cases p <;> rfl
  case h_6 => exact absurd ‹_› h
  case h_9 => split <;> simp
  case h_12 => simp
  all_goals rfl

/-- The engines never set or clear PWRSV (R34, R123, R142). -/
theorem phyComplete_pwrsv (d : Device) : pwrsv (phyComplete d).regs = pwrsv d.regs := by
  unfold phyComplete
  split <;> rfl

theorem rxArrive_pwrsv (c : Config) (n : Nat) (f : List Byte) (w : Word) (d : Device) :
    pwrsv (rxArrive c n f w d).regs = pwrsv d.regs := by
  unfold rxArrive
  dsimp only
  split
  · split
    · rfl
    · split <;> rfl
  · rfl

/-- PWRSV after a transaction that gets through is as before, but for SRC and a write that reaches ECON2
(R40, R91, R105). -/
theorem outOf_pwrsv {i : Instr} {s : State} (hs : i ≠ .src)
    (h : ∀ a x, i = .wcr a x ∨ i = .bfs a x ∨ i = .bfc a x → regAt (devLoc s.dev.regs a) ≠ .econ2) :
    pwrsv (outOf i s).dev.regs = pwrsv s.dev.regs := by
  cases i with
  | rcr a fill => simp only [outOf, rcrOut]; split <;> rfl
  | rbm fill => rfl
  | wcr a v => exact congrArg (·.getLsbD 5) (devWrite_econ2 _ _ _ _ _ (h a v (.inl rfl)))
  | wbm data => rfl
  | bfs a m =>
    simp only [outOf, bitFieldOut]
    split
    · rfl
    · exact congrArg (·.getLsbD 5) (devWrite_econ2 _ _ _ _ _ (h a m (.inr (.inl rfl))))
  | bfc a m =>
    simp only [outOf, bitFieldOut]
    split
    · rfl
    · exact congrArg (·.getLsbD 5) (devWrite_econ2 _ _ _ _ _ (h a m (.inr (.inr rfl))))
  | src => exact absurd rfl hs

/-- The only model fault of a device write is the PHY overlap (R123). -/
theorem devWrite_faults (c : Config) (n : Nat) (a : Addr) (v : Byte) (d : Device) :
    ∀ f ∈ (devWrite c n a v d).faults, f = .phyOverlap := by
  unfold devWrite phyStart
  dsimp only
  split <;> (try split) <;> (try split) <;> simp

/-- A device write keeps absent register bits 0 (R40, R42, R44, R91). -/
theorem devWrite_reserved (c : Config) (n : Nat) (a : Addr) (v : Byte) (d : Device) (h : reservedZero d.regs) :
    reservedZero (devWrite c n a v d).dev.regs := by
  obtain ⟨h1, h2, h3⟩ := h
  have e2 : ∀ x : Byte, x &&& econ2Bits &&& ~~~econ2Bits = 0 := by decide
  have e3 : ∀ x : Byte, x &&& micmdBits &&& ~~~micmdBits = 0 := by decide
  have e1 : eirStored c d.regs.eir v &&& ~~~eirBits = 0 := by
    have k1 : ∀ x : Byte, x &&& 0x7B &&& ~~~eirBits = 0 := by decide
    have k2 : ∀ x : Byte, x &&& 0x3B &&& ~~~eirBits = 0 := by decide
    have k3 : ∀ x : Byte, x &&& 0x40 &&& ~~~eirBits = 0 := by decide
    unfold eirStored
    split
    · have : ∀ x y z : Byte, x &&& z = 0 → y &&& z = 0 → (x ||| y) &&& z = 0 := by
        intro x y z hx hy
        have hx' := fun k : Nat => congrArg (fun w : Byte => w.getLsbD k) hx
        have hy' := fun k : Nat => congrArg (fun w : Byte => w.getLsbD k) hy
        refine BitVec.eq_of_getLsbD_eq fun k _ => ?_
        have hx := hx' k
        have hy := hy' k
        simp only [BitVec.getLsbD_and, BitVec.getLsbD_or, BitVec.ofNat_eq_ofNat, BitVec.getLsbD_zero] at hx hy ⊢
        rw [Bool.and_or_distrib_right, hx, hy]
        rfl
      exact this _ _ _ (k2 v) (k3 _)
    · exact k1 v
  unfold devWrite
  dsimp only
  split
  case h_1 => rename_i p _; cases p <;> exact ⟨h1, h2, h3⟩
  case h_2 => rename_i p _; cases p <;> exact ⟨h1, h2, h3⟩
  case h_4 => exact ⟨h1, e1, h3⟩
  case h_6 => exact ⟨e2 v, h2, h3⟩
  case h_9 =>
    split
    · rw [reservedZero, (phyStart_fields _ _ _).2.2.2]
      exact ⟨h1, h2, e3 v⟩
    · exact ⟨h1, h2, e3 v⟩
  case h_12 =>
    rw [reservedZero, (phyStart_fields _ _ _).2.2.2]
    exact ⟨h1, h2, h3⟩
  all_goals exact ⟨h1, h2, h3⟩

theorem anyDevice_reserved (n : Nat) : reservedZero (anyDevice n).regs := by
  have e1 : ∀ x : Byte, x &&& econ2Bits &&& ~~~econ2Bits = 0 := by decide
  have e2 : ∀ x : Byte, x &&& eirBits &&& ~~~eirBits = 0 := by decide
  have e3 : ∀ x : Byte, x &&& micmdBits &&& ~~~micmdBits = 0 := by decide
  exact ⟨e1 _, e2 _, e3 _⟩

/-- What the device side of a transaction keeps: the canonical memory and the absent bits (R30, R40, R42, R44). -/
theorem outOf_keeps (i : Instr) (s : State) (hm : Memory.wf s.dev.mem) (hr : reservedZero s.dev.regs)
    (hi : reservedZero s.cfg.devReset) :
    Memory.wf (outOf i s).dev.mem ∧ reservedZero (outOf i s).dev.regs := by
  cases i with
  | rcr a fill =>
    simp only [outOf, rcrOut]
    split <;> exact ⟨hm, hr⟩
  | rbm fill => exact ⟨hm, hr⟩
  | wcr a v => exact ⟨by simpa [outOf, writeOut] using hm, devWrite_reserved _ _ _ _ _ hr⟩
  | wbm data => exact ⟨writeBuffer_wf _ _ hm _, hr⟩
  | bfs a m =>
    simp only [outOf, bitFieldOut]
    split
    · exact ⟨hm, hr⟩
    · exact ⟨by simpa [writeOut] using hm, devWrite_reserved _ _ _ _ _ hr⟩
  | bfc a m =>
    simp only [outOf, bitFieldOut]
    split
    · exact ⟨hm, hr⟩
    · exact ⟨by simpa [writeOut] using hm, devWrite_reserved _ _ _ _ _ hr⟩
  | src => exact ⟨Memory.wf_nil, hi⟩

end Sys2Proof.Machine
end

