-- ==== Sys2Proof/Laws/PerInstr.lean ====
section
/-! SUPPORT. Facts of every transaction as syntax, one lemma per constructor. -/

namespace Sys2Proof.Laws.OpcodeRow

/-- The opcode byte of the transaction's frame is of its row of the opcode map, and of no other (R71). -/
def Statement (i : Instr) : Prop :=
  ∃ b payload, encode i = b :: payload ∧ ∃ r, opcodeRows.filter (fun r => r.admits b) = [r] ∧
    r.op = (match i with
      | .rcr _ _ => .rcr
      | .rbm _ => .rbm
      | .wcr _ _ => .wcr
      | .wbm _ => .wbm
      | .bfs _ _ => .bfs
      | .bfc _ _ => .bfc
      | .src => .src)

theorem rcr (addr : Addr) (fill : List Byte) : Statement (.rcr addr fill) :=
  ⟨_, _, rfl, ⟨.rcr, 0x00, 0xE0⟩, by revert addr; decide, rfl⟩

theorem rbm (fill : List Byte) : Statement (.rbm fill) := ⟨_, _, rfl, ⟨.rbm, 0x3A, 0xFF⟩, by decide, rfl⟩

theorem wcr (addr : Addr) (data : Byte) : Statement (.wcr addr data) :=
  ⟨_, _, rfl, ⟨.wcr, 0x40, 0xE0⟩, by revert addr; decide, rfl⟩

theorem wbm (data : List Byte) : Statement (.wbm data) := ⟨_, _, rfl, ⟨.wbm, 0x7A, 0xFF⟩, by decide, rfl⟩

theorem bfs (addr : Addr) (mask : Byte) : Statement (.bfs addr mask) :=
  ⟨_, _, rfl, ⟨.bfs, 0x80, 0xE0⟩, by revert addr; decide, rfl⟩

theorem bfc (addr : Addr) (mask : Byte) : Statement (.bfc addr mask) :=
  ⟨_, _, rfl, ⟨.bfc, 0xA0, 0xE0⟩, by revert addr; decide, rfl⟩

theorem src : Statement .src := ⟨_, _, rfl, ⟨.src, 0xFF, 0xFF⟩, by decide, rfl⟩

end Sys2Proof.Laws.OpcodeRow
end

