-- ==== Sys2Proof/Laws/Sequencer.lean ====
section
/-! SUPPORT. What the sequencer and the engines leave alone, and each agent's move as a function of the state. -/

namespace Sys2Proof.Machine

/-! ## What `goto`, `advance` and `consume` leave alone -/

@[simp] theorem goto_cfg (o : Op) (n : Nat) (e : Bool) (s : State) : (goto o n e s).cfg = s.cfg := by
  unfold goto; split <;> rfl

@[simp] theorem goto_dev (o : Op) (n : Nat) (e : Bool) (s : State) : (goto o n e s).dev = s.dev := by
  unfold goto; split <;> rfl

@[simp] theorem goto_devSettling (o : Op) (n : Nat) (e : Bool) (s : State) : (goto o n e s).devSettling = s.devSettling := by
  unfold goto; split <;> rfl

@[simp] theorem goto_bus (o : Op) (n : Nat) (e : Bool) (s : State) : (goto o n e s).bus = s.bus := by
  unfold goto; split <;> rfl

@[simp] theorem goto_agenda (o : Op) (n : Nat) (e : Bool) (s : State) : (goto o n e s).agenda = s.agenda := by
  unfold goto; split <;> rfl

@[simp] theorem goto_draws (o : Op) (n : Nat) (e : Bool) (s : State) : (goto o n e s).draws = s.draws := by
  unfold goto; split <;> rfl

@[simp] theorem goto_cs (o : Op) (n : Nat) (e : Bool) (s : State) : (goto o n e s).blk.cs = s.blk.cs := by
  unfold goto; split <;> rfl

@[simp] theorem goto_op (o : Op) (n : Nat) (e : Bool) (s : State) : (goto o n e s).blk.op = s.blk.op := by
  unfold goto; split <;> rfl

@[simp] theorem goto_npp (o : Op) (n : Nat) (e : Bool) (s : State) : (goto o n e s).blk.npp = s.blk.npp := by
  unfold goto; split <;> rfl

@[simp] theorem goto_flen (o : Op) (n : Nat) (e : Bool) (s : State) : (goto o n e s).blk.flen = s.blk.flen := by
  unfold goto; split <;> rfl

@[simp] theorem goto_rsv (o : Op) (n : Nat) (e : Bool) (s : State) : (goto o n e s).blk.rsv = s.blk.rsv := by
  unfold goto; split <;> rfl

@[simp] theorem goto_settling (o : Op) (n : Nat) (e : Bool) (s : State) : (goto o n e s).blk.settling = s.blk.settling := by
  unfold goto; split <;> rfl

@[simp] theorem goto_err (o : Op) (n : Nat) (e : Bool) (s : State) : (goto o n e s).blk.err = s.blk.err := by
  unfold goto; split <;> rfl

@[simp] theorem goto_faults (o : Op) (n : Nat) (e : Bool) (s : State) : (goto o n e s).blk.faults = s.blk.faults := by
  unfold goto; split <;> rfl

@[simp] theorem goto_buf (o : Op) (n : Nat) (e : Bool) (s : State) : (goto o n e s).blk.buf = s.blk.buf := by
  unfold goto; split <;> rfl

@[simp] theorem goto_log (o : Op) (n : Nat) (e : Bool) (s : State) : (goto o n e s).blk.log = s.blk.log := by
  unfold goto; split <;> rfl

@[simp] theorem goto_nppOut (o : Op) (n : Nat) (e : Bool) (s : State) : (goto o n e s).blk.nppOut = s.blk.nppOut := by
  unfold goto; split <;> rfl

@[simp] theorem goto_ret (o : Op) (n : Nat) (e : Bool) (s : State) : (goto o n e s).blk.ret = s.blk.ret := by
  unfold goto; split <;> rfl

@[simp] theorem goto_rx (o : Op) (n : Nat) (e : Bool) (s : State) : (goto o n e s).blk.rx = s.blk.rx := by
  unfold goto; split <;> rfl

@[simp] theorem goto_low (o : Op) (n : Nat) (e : Bool) (s : State) : (goto o n e s).blk.low = s.blk.low := by
  unfold goto; split <;> rfl

@[simp] theorem goto_step (o : Op) (n : Nat) (e : Bool) (s : State) : (goto o n e s).blk.step = n := by
  unfold goto; split <;> rfl

@[simp] theorem advance_cfg (o : Op) (v : Value) (s : State) : (advance o v s).cfg = s.cfg := by
  unfold advance; split <;> simp

@[simp] theorem advance_dev (o : Op) (v : Value) (s : State) : (advance o v s).dev = s.dev := by
  unfold advance; split <;> simp

@[simp] theorem advance_devSettling (o : Op) (v : Value) (s : State) : (advance o v s).devSettling = s.devSettling := by
  unfold advance; split <;> simp

@[simp] theorem advance_bus (o : Op) (v : Value) (s : State) : (advance o v s).bus = s.bus := by
  unfold advance; split <;> simp

@[simp] theorem advance_agenda (o : Op) (v : Value) (s : State) : (advance o v s).agenda = s.agenda := by
  unfold advance; split <;> simp

@[simp] theorem advance_draws (o : Op) (v : Value) (s : State) : (advance o v s).draws = s.draws := by
  unfold advance; split <;> simp

@[simp] theorem advance_cs (o : Op) (v : Value) (s : State) : (advance o v s).blk.cs = s.blk.cs := by
  unfold advance; split <;> simp

@[simp] theorem advance_npp (o : Op) (v : Value) (s : State) : (advance o v s).blk.npp = s.blk.npp := by
  unfold advance; split <;> simp

@[simp] theorem advance_flen (o : Op) (v : Value) (s : State) : (advance o v s).blk.flen = s.blk.flen := by
  unfold advance; split <;> simp

@[simp] theorem advance_rsv (o : Op) (v : Value) (s : State) : (advance o v s).blk.rsv = s.blk.rsv := by
  unfold advance; split <;> simp

@[simp] theorem advance_settling (o : Op) (v : Value) (s : State) : (advance o v s).blk.settling = s.blk.settling := by
  unfold advance; split <;> simp

@[simp] theorem advance_faults (o : Op) (v : Value) (s : State) : (advance o v s).blk.faults = s.blk.faults := by
  unfold advance; split <;> simp

@[simp] theorem advance_buf (o : Op) (v : Value) (s : State) : (advance o v s).blk.buf = s.blk.buf := by
  unfold advance; split <;> simp

@[simp] theorem advance_log (o : Op) (v : Value) (s : State) : (advance o v s).blk.log = s.blk.log := by
  unfold advance; split <;> simp

@[simp] theorem advance_nppOut (o : Op) (v : Value) (s : State) : (advance o v s).blk.nppOut = s.blk.nppOut := by
  unfold advance; split <;> simp

@[simp] theorem advance_rx (o : Op) (v : Value) (s : State) : (advance o v s).blk.rx = s.blk.rx := by
  unfold advance; split <;> simp

@[simp] theorem advance_low (o : Op) (v : Value) (s : State) : (advance o v s).blk.low = s.blk.low := by
  unfold advance; split <;> simp

@[simp] theorem pollAgain_cfg (o : Op) (id : Byte) (s : State) : (pollAgain o id s).cfg = s.cfg := by
  unfold pollAgain; dsimp only; split <;> simp

@[simp] theorem pollAgain_dev (o : Op) (id : Byte) (s : State) : (pollAgain o id s).dev = s.dev := by
  unfold pollAgain; dsimp only; split <;> simp

@[simp] theorem pollAgain_devSettling (o : Op) (id : Byte) (s : State) : (pollAgain o id s).devSettling = s.devSettling := by
  unfold pollAgain; dsimp only; split <;> simp

@[simp] theorem pollAgain_bus (o : Op) (id : Byte) (s : State) : (pollAgain o id s).bus = s.bus := by
  unfold pollAgain; dsimp only; split <;> simp

@[simp] theorem pollAgain_agenda (o : Op) (id : Byte) (s : State) : (pollAgain o id s).agenda = s.agenda := by
  unfold pollAgain; dsimp only; split <;> simp

@[simp] theorem pollAgain_draws (o : Op) (id : Byte) (s : State) : (pollAgain o id s).draws = s.draws := by
  unfold pollAgain; dsimp only; split <;> simp

@[simp] theorem pollAgain_cs (o : Op) (id : Byte) (s : State) : (pollAgain o id s).blk.cs = s.blk.cs := by
  unfold pollAgain; dsimp only; split <;> simp

@[simp] theorem pollAgain_npp (o : Op) (id : Byte) (s : State) : (pollAgain o id s).blk.npp = s.blk.npp := by
  unfold pollAgain; dsimp only; split <;> simp

@[simp] theorem pollAgain_flen (o : Op) (id : Byte) (s : State) : (pollAgain o id s).blk.flen = s.blk.flen := by
  unfold pollAgain; dsimp only; split <;> simp

@[simp] theorem pollAgain_rsv (o : Op) (id : Byte) (s : State) : (pollAgain o id s).blk.rsv = s.blk.rsv := by
  unfold pollAgain; dsimp only; split <;> simp

@[simp] theorem pollAgain_settling (o : Op) (id : Byte) (s : State) : (pollAgain o id s).blk.settling = s.blk.settling := by
  unfold pollAgain; dsimp only; split <;> simp

@[simp] theorem pollAgain_faults (o : Op) (id : Byte) (s : State) : (pollAgain o id s).blk.faults = s.blk.faults := by
  unfold pollAgain; dsimp only; split <;> simp

@[simp] theorem pollAgain_buf (o : Op) (id : Byte) (s : State) : (pollAgain o id s).blk.buf = s.blk.buf := by
  unfold pollAgain; dsimp only; split <;> simp

@[simp] theorem pollAgain_log (o : Op) (id : Byte) (s : State) : (pollAgain o id s).blk.log = s.blk.log := by
  unfold pollAgain; dsimp only; split <;> simp

@[simp] theorem pollAgain_nppOut (o : Op) (id : Byte) (s : State) : (pollAgain o id s).blk.nppOut = s.blk.nppOut := by
  unfold pollAgain; dsimp only; split <;> simp

@[simp] theorem pollAgain_rx (o : Op) (id : Byte) (s : State) : (pollAgain o id s).blk.rx = s.blk.rx := by
  unfold pollAgain; dsimp only; split <;> simp

@[simp] theorem pollAgain_low (o : Op) (id : Byte) (s : State) : (pollAgain o id s).blk.low = s.blk.low := by
  unfold pollAgain; dsimp only; split <;> simp

@[simp] theorem consume_cfg (o : Op) (a : Act) (s : State) : (consume o a s).cfg = s.cfg := by
  unfold consume; split <;> (try split) <;> simp

@[simp] theorem consume_dev (o : Op) (a : Act) (s : State) : (consume o a s).dev = s.dev := by
  unfold consume; split <;> (try split) <;> simp

@[simp] theorem consume_bus (o : Op) (a : Act) (s : State) : (consume o a s).bus = s.bus := by
  unfold consume; split <;> (try split) <;> simp

@[simp] theorem consume_agenda (o : Op) (a : Act) (s : State) : (consume o a s).agenda = s.agenda := by
  unfold consume; split <;> (try split) <;> simp

@[simp] theorem consume_draws (o : Op) (a : Act) (s : State) : (consume o a s).draws = s.draws := by
  unfold consume; split <;> (try split) <;> simp

@[simp] theorem consume_cs (o : Op) (a : Act) (s : State) : (consume o a s).blk.cs = s.blk.cs := by
  unfold consume; split <;> (try split) <;> simp

@[simp] theorem consume_faults (o : Op) (a : Act) (s : State) : (consume o a s).blk.faults = s.blk.faults := by
  unfold consume; split <;> (try split) <;> simp

@[simp] theorem consume_log (o : Op) (a : Act) (s : State) : (consume o a s).blk.log = s.blk.log := by
  unfold consume; split <;> (try split) <;> simp

@[simp] theorem consume_rx (o : Op) (a : Act) (s : State) : (consume o a s).blk.rx = s.blk.rx := by
  unfold consume; split <;> (try split) <;> simp

theorem consume_devSettling {a : Act} (h : a ≠ .settle) (o : Op) (s : State) :
    (consume o a s).devSettling = s.devSettling := by
  unfold consume
  split <;> (try split) <;> simp_all

theorem consume_settling {a : Act} (h : a ≠ .settle) (o : Op) (s : State) :
    (consume o a s).blk.settling = s.blk.settling := by
  unfold consume
  split <;> (try split) <;> simp_all

@[simp] theorem afterFrame_cfg (s : State) : (afterFrame s).cfg = s.cfg := by
  unfold afterFrame; split <;> simp

@[simp] theorem afterFrame_dev (s : State) : (afterFrame s).dev = s.dev := by
  unfold afterFrame; split <;> simp

@[simp] theorem afterFrame_bus (s : State) : (afterFrame s).bus = s.bus := by
  unfold afterFrame; split <;> simp

@[simp] theorem afterFrame_agenda (s : State) : (afterFrame s).agenda = s.agenda := by
  unfold afterFrame; split <;> simp

@[simp] theorem afterFrame_draws (s : State) : (afterFrame s).draws = s.draws := by
  unfold afterFrame; split <;> simp

@[simp] theorem afterFrame_cs (s : State) : (afterFrame s).blk.cs = s.blk.cs := by
  unfold afterFrame; split <;> simp

@[simp] theorem afterFrame_faults (s : State) : (afterFrame s).blk.faults = s.blk.faults := by
  unfold afterFrame; split <;> simp

@[simp] theorem afterFrame_log (s : State) : (afterFrame s).blk.log = s.blk.log := by
  unfold afterFrame; split <;> simp

@[simp] theorem afterFrame_rx (s : State) : (afterFrame s).blk.rx = s.blk.rx := by
  unfold afterFrame; split <;> simp

@[simp] theorem blockQuiet_cfg (s : State) : (blockQuiet s).cfg = s.cfg := by
  unfold blockQuiet; split <;> (try split) <;> simp

@[simp] theorem blockQuiet_dev (s : State) : (blockQuiet s).dev = s.dev := by
  unfold blockQuiet; split <;> (try split) <;> simp

@[simp] theorem blockQuiet_bus (s : State) : (blockQuiet s).bus = s.bus := by
  unfold blockQuiet; split <;> (try split) <;> simp

@[simp] theorem blockQuiet_agenda (s : State) : (blockQuiet s).agenda = s.agenda := by
  unfold blockQuiet; split <;> (try split) <;> simp

@[simp] theorem blockQuiet_cs (s : State) : (blockQuiet s).blk.cs = s.blk.cs := by
  unfold blockQuiet; split <;> (try split) <;> simp

@[simp] theorem blockQuiet_log (s : State) : (blockQuiet s).blk.log = s.blk.log := by
  unfold blockQuiet; split <;> (try split) <;> simp

@[simp] theorem blockQuiet_rx (s : State) : (blockQuiet s).blk.rx = s.blk.rx := by
  unfold blockQuiet; split <;> (try split) <;> simp

@[simp] theorem request_cfg (o : Op) (s : State) : (request o s).cfg = s.cfg := by
  unfold request; split <;> (try split) <;> simp

@[simp] theorem request_dev (o : Op) (s : State) : (request o s).dev = s.dev := by
  unfold request; split <;> (try split) <;> simp

@[simp] theorem request_devSettling (o : Op) (s : State) : (request o s).devSettling = s.devSettling := by
  unfold request; split <;> (try split) <;> simp

@[simp] theorem request_bus (o : Op) (s : State) : (request o s).bus = s.bus := by
  unfold request; split <;> (try split) <;> simp

@[simp] theorem request_agenda (o : Op) (s : State) : (request o s).agenda = s.agenda := by
  unfold request; split <;> (try split) <;> simp

@[simp] theorem request_draws (o : Op) (s : State) : (request o s).draws = s.draws := by
  unfold request; split <;> (try split) <;> simp

@[simp] theorem request_cs (o : Op) (s : State) : (request o s).blk.cs = s.blk.cs := by
  unfold request; split <;> (try split) <;> simp

@[simp] theorem request_npp (o : Op) (s : State) : (request o s).blk.npp = s.blk.npp := by
  unfold request; split <;> (try split) <;> simp

@[simp] theorem request_flen (o : Op) (s : State) : (request o s).blk.flen = s.blk.flen := by
  unfold request; split <;> (try split) <;> simp

@[simp] theorem request_rsv (o : Op) (s : State) : (request o s).blk.rsv = s.blk.rsv := by
  unfold request; split <;> (try split) <;> simp

@[simp] theorem request_settling (o : Op) (s : State) : (request o s).blk.settling = s.blk.settling := by
  unfold request; split <;> (try split) <;> simp

@[simp] theorem request_buf (o : Op) (s : State) : (request o s).blk.buf = s.blk.buf := by
  unfold request; split <;> (try split) <;> simp

@[simp] theorem request_log (o : Op) (s : State) : (request o s).blk.log = s.blk.log := by
  unfold request; split <;> (try split) <;> simp

@[simp] theorem request_nppOut (o : Op) (s : State) : (request o s).blk.nppOut = s.blk.nppOut := by
  unfold request; split <;> (try split) <;> simp

@[simp] theorem request_rx (o : Op) (s : State) : (request o s).blk.rx = s.blk.rx := by
  unfold request; split <;> (try split) <;> simp

@[simp] theorem request_low (o : Op) (s : State) : (request o s).blk.low = s.blk.low := by
  unfold request; split <;> (try split) <;> simp

/-! ## Whether a side settles (R88, R105) -/

@[simp] theorem settling_goto (o : Op) (n : Nat) (e : Bool) (s : State) : (goto o n e s).settling = s.settling := by
  simp [State.settling]

@[simp] theorem settling_advance (o : Op) (v : Value) (s : State) : (advance o v s).settling = s.settling := by
  simp [State.settling]

@[simp] theorem settling_request (o : Op) (s : State) : (request o s).settling = s.settling := by
  simp [State.settling]

/-- Only the settling step ends the delay (R148). -/
theorem settling_consume {a : Act} (h : a ≠ .settle) (o : Op) (s : State) :
    (consume o a s).settling = s.settling := by
  simp [State.settling, consume_settling h, consume_devSettling h]

/-! ## Where the block stands -/

/-- `goto` a step of the expansion puts the block in its place (R18, R117, R125). -/
theorem goto_placed {o : Op} {n : Nat} {s : State} (ho : s.blk.op = some o) (hn : n < (expansion s.cfg o).length)
    (e : Bool) : (goto o n e s).Placed := by
  have hm : (expansion s.cfg o)[n]? = some (expansion s.cfg o)[n] := List.getElem?_eq_getElem hn
  simp only [State.Placed, goto_op, ho, goto_cfg, goto_step]
  exact ⟨_, hm, by simp [goto, hm], by simp [goto, hm]⟩

theorem raise_placed (e : Err) (s : State) : (raise e s).Placed := by simp [State.Placed]

theorem finish_placed (v : Value) (s : State) : (finish v s).Placed := by simp [State.Placed]

theorem rxOverflow_placed (s : State) : (rxOverflow s).Placed := by simp [State.Placed]

theorem advance_placed {o : Op} {s : State} (ho : s.blk.op = some o) (v : Value) : (advance o v s).Placed := by
  unfold advance
  split
  · exact goto_placed ho ‹_› true
  · exact finish_placed v s

/-- A poll loops back to a step of the expansion, or times out (R115). -/
theorem pollAgain_placed {o : Op} {s : State} (ho : s.blk.op = some o)
    (hs : s.blk.step < (expansion s.cfg o).length) (id : Byte) : (pollAgain o id s).Placed := by
  unfold pollAgain
  dsimp only
  split
  · exact raise_placed _ _
  · refine goto_placed (s := { s with blk := { s.blk with pollcnt := s.blk.pollcnt + 1 } }) ho ?_ false
    simp only [pollSteps]
    omega

/-- Consuming the response of the step the block stands at leaves it in its place. -/
theorem consume_placed {o : Op} {s : State} (ho : s.blk.op = some o)
    (hs : s.blk.step < (expansion s.cfg o).length) (a : Act) : (consume o a s).Placed := by
  unfold consume
  split
  case h_6 =>
    split
    · exact advance_placed ho _
    · exact pollAgain_placed ho hs _
  all_goals exact advance_placed (by simpa using ho) _

/-- Every operation has a first step. -/
theorem expansion_pos (c : Config) (o : Op) : 0 < (expansion c o).length := by
  cases o <;>
    simp [expansion, readReg, writeReg, readPair, writePair, readPhySteps, writePhySteps, receiveSteps, sendSteps, initSteps,
      bankSwitch, inPhySt, inRxSt, writeNppPair, pollFlag]

/-! ## Each agent's move as a function -/

/-- The state after a frame's bytes reach the device. -/
def frameState (tx : List Byte) (s : State) : State :=
  match decode tx with
  | .ok i => execState i s
  | .rejected .empty => s
  | .rejected .reservedOpcode => transact tx (noEffect .reservedOpcode tx s) s
  | .rejected .frameLength => transact tx (noEffect .frameLength tx s) s

theorem runFrame_eq (tx : List Byte) (s : State) : runFrame tx s = .next (frameState tx s) := by
  unfold runFrame frameState
  rcases decode tx with i | (_ | _ | _)
  · exact exec_eq i s
  all_goals rfl

/-- The state after the block's move. -/
def blockState (s : State) : State :=
  match blockFrame s with
  | some tx => afterFrame (frameState tx s)
  | none => blockQuiet s

theorem blockStep_eq (s : State) : blockStep s = .next (blockState s) := by
  unfold blockStep blockState
  rcases blockFrame s with _ | tx
  · rfl
  · simp only [runFrame_eq, thenNext]

/-- The state after an event's move. -/
def eventState (e : Event) (s : State) : State :=
  match e with
  | .block => blockState s
  | .request o => request o s
  | .callerStore k v => callerStore k v s
  | .busFail received => { s with bus := some received }
  | .frame tx => frameState tx s
  | .phy => onDevice phyComplete s
  | .clock => onDevice clockReady s
  | .rx f status => onDevice (rxArrive s.cfg s.draws f status) s
  | .powerOn => powerOn s
  | .blockReset => blockReset s

theorem eventStep_eq (e : Event) (s : State) : eventStep e s = .next (eventState e s) := by
  cases e <;> first | exact blockStep_eq s | exact runFrame_eq _ s | rfl

/-- The state after one step. -/
def stepState (s : State) : State :=
  match s.agenda with
  | [] => blockState s
  | e :: rest => eventState e { s with agenda := rest }

/-- Every step answers a next state, and this one. -/
theorem step_eq (s : State) : step s = .next (stepState s) := by
  unfold step stepOnce stepState
  rcases s.agenda with _ | ⟨e, rest⟩
  · exact blockStep_eq s
  · exact eventStep_eq e _

theorem step_next {s t : State} (h : step s = .next t) : t = stepState s := by
  rw [step_eq] at h
  exact (Host.Outcome.next.inj h).symm

/-- Everything a step can do: the block moves, or the first event of the agenda has its move. -/
theorem step_cases {s t : State} (h : step s = .next t) :
    (s.agenda = [] ∧ t = blockState s) ∨
    ∃ e rest, s.agenda = e :: rest ∧ t = eventState e { s with agenda := rest } := by
  rw [step_next h]
  unfold stepState
  split
  · exact .inl ⟨‹_›, rfl⟩
  · exact .inr ⟨_, _, ‹_›, rfl⟩

/-- `n` steps as a function. -/
def runState : Nat → State → State
  | 0, s => s
  | n + 1, s => runState n (stepState s)

theorem run_eq (n : Nat) (s : State) : run n s = .next (runState n s) := by
  induction n generalizing s with
  | zero => rfl
  | succ n ih => simp [run, runState, step_eq, ih]

theorem runState_add (m n : Nat) (s : State) : runState (m + n) s = runState n (runState m s) := by
  induction m generalizing s with
  | zero => simp [runState]
  | succ m ih => rw [Nat.succ_add]; exact ih _

/-- With nothing else to happen, a step is the block's move. -/
theorem stepState_idle {s : State} (h : s.agenda = []) : stepState s = blockState s := by
  simp [stepState, h]

theorem stepState_event {s : State} {e : Event} {rest : List Event} (h : s.agenda = e :: rest) :
    stepState s = eventState e { s with agenda := rest } := by
  simp [stepState, h]

/-- Each move of a schedule is one step with that move as its agenda. -/
theorem scheduled_succ (σ : Schedule) (s : State) (n : Nat) :
    scheduled σ s (n + 1) = stepState { scheduled σ s n with agenda := [σ n] } := by
  simp [scheduled, step_eq]

/-! ## The block's own frames decode to the transaction they were made from -/

/-- The transactions the sequencer sends are well-formed (R80). -/
theorem actInstr_wellFormed {s : State} {m : Micro} {i : Instr}
    (h : actInstr s m.act = some i) (hsend : ∀ j, m.act = .send j → j.WellFormed) : i.WellFormed := by
  have fill : ∀ (a : Addr) (d : Bool), (Instr.rcr a (rcrFill d)).WellFormed := by
    intro a d
    cases d <;> simp [Instr.WellFormed, rcrFill]
  cases ha : m.act with
  | send j => rw [ha] at h; cases h; exact hsend _ ha
  | read a d k => rw [ha] at h; cases h; exact fill _ _
  | readBytes n => rw [ha] at h; cases h; trivial
  | poll id mask cond => rw [ha] at h; cases h; exact fill _ _
  | header => rw [ha] at h; cases h; trivial
  | body =>
    rw [ha] at h
    simp only [actInstr] at h
    split at h
    · cases h; trivial
    · cases h
  | writeNpp a k => rw [ha] at h; cases h; trivial
  | settle => rw [ha] at h; cases h

/-! ## The engines (R123, R142) -/

theorem phyComplete_mem (d : Device) : (phyComplete d).mem = d.mem := by
  unfold phyComplete; split <;> rfl

theorem phyComplete_reserved {d : Device} (h : reservedZero d.regs) : reservedZero (phyComplete d).regs := by
  unfold phyComplete
  split <;> exact h

/-- A place in the ring is inside the ring (R63). -/
theorem Ring.add_le {g : Ring} (h : g.first ≤ g.last) (p k : Nat) : g.first ≤ g.add p k ∧ g.add p k ≤ g.last := by
  have hpos : 0 < g.size := by simp only [Ring.size]; omega
  have := Nat.mod_lt (p - g.first + k) hpos
  simp only [Ring.add, Ring.size] at this ⊢
  omega

theorem ringOf_add_lt {r : DevRegs} {p : Nat} (h : (ringOf r).contains p = true) (q k : Nat) :
    (ringOf r).add q k < Config.MEM_SIZE := by
  simp only [Ring.contains, decide_eq_true_eq] at h
  have hle : (ringOf r).first ≤ (ringOf r).last := h.1.trans h.2
  have := (Ring.add_le hle q k).2
  have hlt : (ringOf r).last < 8192 := r.erxnd.isLt
  exact lt_of_le_of_lt this hlt

/-- Everything an arriving frame can do to the device (R142). -/
theorem rxArrive_cases (c : Config) (n : Nat) (f : List Byte) (w : Word) (d : Device) :
    rxArrive c n f w d = d ∨ (rxen d.regs = true ∧ (rxArrive c n f w d = rxDrop d ∨
      (rxFits c n f.length d.regs = true ∧ d.regs.epktcnt ≠ 255 ∧
        (((ringOf d.regs).contains d.regs.erxwrpt.toNat = true ∧ rxArrive c n f w d = rxDeposit c f w d) ∨
         ((ringOf d.regs).contains d.regs.erxwrpt.toNat = false ∧ rxArrive c n f w d = rxDepositOutside c n d))))) := by
  unfold rxArrive
  dsimp only
  split
  · rename_i h
    refine .inr ⟨h.1, ?_⟩
    split
    · exact .inl rfl
    · rename_i hf
      rw [not_or, Bool.not_eq_false] at hf
      refine .inr ⟨hf.2, hf.1, ?_⟩
      split
      · exact .inl ⟨‹_›, rfl⟩
      · exact .inr ⟨Bool.eq_false_iff.2 ‹_›, rfl⟩
  · exact .inl rfl

/-- A frame that may arrive is dropped exactly when the counter is full or it does not fit (R142). -/
theorem rxArrive_enabled {c : Config} {n : Nat} {f : List Byte} {w : Word} {d : Device} (he : rxen d.regs = true)
    (h1 : 1 ≤ f.length) (h2 : f.length ≤ 0xFFFF) :
    rxArrive c n f w d = if d.regs.epktcnt = 255 ∨ rxFits c n f.length d.regs = false then rxDrop d
      else if (ringOf d.regs).contains d.regs.erxwrpt.toNat then rxDeposit c f w d else rxDepositOutside c n d := by
  simp [rxArrive, he, h1, h2]

/-- With ERXWRPT inside the ring a frame fits when it leaves a byte free (R142). -/
theorem rxFits_inside {c : Config} {n len : Nat} {r : DevRegs} (h : (ringOf r).contains r.erxwrpt.toNat = true) :
    rxFits c n len r = decide (rxNeed c.rxOdd len < rxFree r) := by
  simp [rxFits, h]

theorem rxArrive_mem_wf {c : Config} {n : Nat} {f : List Byte} {w : Word} {d : Device} (h : Memory.wf d.mem) :
    Memory.wf (rxArrive c n f w d).mem := by
  rcases rxArrive_cases c n f w d with e | ⟨-, e | ⟨-, -, ⟨hc, e⟩ | ⟨-, e⟩⟩⟩ <;> rw [e]
  · exact h
  · exact h
  · exact writeRing_wf _ _ _ _ h (ringOf_add_lt hc _)
  · exact Memory.wf_nil

theorem rxArrive_reserved {c : Config} {n : Nat} {f : List Byte} {w : Word} {d : Device} (h : reservedZero d.regs) :
    reservedZero (rxArrive c n f w d).regs := by
  obtain ⟨h1, h2, h3⟩ := h
  have k : ∀ x y z : Byte, x &&& z = 0 → y &&& z = 0 → (x ||| y) &&& z = 0 := by
    intro x y z hx hy
    have e : (x ||| y) &&& z = (x &&& z) ||| (y &&& z) := by
      refine BitVec.eq_of_getLsbD_eq fun i _ => ?_
      simp [Bool.and_or_distrib_right]
    rw [e, hx, hy]
    rfl
  have e1 : eirDeposited c d.regs.eir &&& ~~~eirBits = 0 := by
    unfold eirDeposited
    split
    · exact h2
    · exact k _ _ _ h2 (by decide)
  rcases rxArrive_cases c n f w d with e | ⟨-, e | ⟨-, -, ⟨-, e⟩ | ⟨-, e⟩⟩⟩ <;> rw [e]
  · exact ⟨h1, h2, h3⟩
  · exact ⟨h1, k _ _ _ h2 (by decide), h3⟩
  · exact ⟨h1, e1, h3⟩
  · exact ⟨h1, e1, h3⟩

/-! ## The caller's buffer (R27, R130, R131) -/

@[simp] theorem overlay_length (buf bs : List Byte) : (overlay buf bs).length = buf.length := by
  induction buf generalizing bs with
  | nil => cases bs <;> rfl
  | cons x buf ih => cases bs <;> simp [overlay, ih]

/-- What a store over the front of the buffer leaves at each place. -/
theorem overlay_get (buf bs : List Byte) (k : Nat) (hk : k < buf.length) :
    (overlay buf bs)[k]? = if k < bs.length then bs[k]? else buf[k]? := by
  induction buf generalizing bs k with
  | nil => simp at hk
  | cons x buf ih =>
    cases bs with
    | nil => simp [overlay]
    | cons b bs =>
      cases k with
      | zero => simp [overlay]
      | succ k => simpa [overlay] using ih bs k (by simpa using hk)

end Sys2Proof.Machine
end

