-- ==== Sys2Proof/Tests/Slice0.lean ====
section
/-! SUPPORT. Tests against the spec's vectors (95_test_vectors.md), and for each statement with hypotheses a concrete
state that meets them. -/

namespace Sys2Proof.Tests

open Sys2Proof Sys2Proof.Machine

/-! ## Small states -/

/-- The reset state with other device registers. -/
def withRegs (f : DevRegs → DevRegs) : State :=
  { State.reset with dev := { State.reset.dev with regs := f State.reset.dev.regs } }

/-- The reset state in a bank. -/
def inBank (b : Bank) : State := withRegs fun r => { r with econ1 := b.setWidth 8 }

/-- A state with these bytes of buffer memory. -/
def withMem (m : List Host.Cell) (s : State) : State := { s with dev := { s.dev with mem := m } }

/-- A state with this PHY operation in flight. -/
def withPhyop (p : PhyOp) (s : State) : State := { s with dev := { s.dev with phyop := p } }

/-- A state with this agenda. -/
def withAgenda (es : List Event) (s : State) : State := { s with agenda := es }

/-- A state in which the block stands at a step of an operation. -/
def atStep (o : Op) (n : Nat) (s : State) : State := { s with blk := { s.blk with op := some o, step := n } }

/-- A state with this limit of polls. -/
def withLimit (n : Nat) (s : State) : State := { s with cfg := { s.cfg with pollLimit := some n } }

/-- The next state has a property. -/
def nextHas (o : Host.Outcome State Fault Refusal) (p : State → Bool) : Bool :=
  match o with
  | .next t => p t
  | .fault _ => false
  | .refused _ => false

/-! ## WellFormed refuses ill-formed terms (R80) -/

theorem test_rcr_without_filler_ill_formed : ¬ (Instr.rcr 0x1C []).WellFormed := by decide

theorem test_rcr_with_three_fillers_ill_formed : ¬ (Instr.rcr 0x1C [0x00, 0x00, 0x00]).WellFormed := by decide

/-! ## Decoding: each family's frame written out from the opcode map (R71, vectors E7 to E15) -/

-- RCR 000aaaaa, a = 11100: EIR
theorem test_decode_rcr : decode [0b00011100, 0x00] = .ok (.rcr 0b11100 [0x00]) := by decide

-- RBM 00111010
theorem test_decode_rbm : decode [0b00111010, 0x00, 0x00] = .ok (.rbm [0x00, 0x00]) := by decide

-- WCR 010aaaaa, a = 10100: MIREGADR
theorem test_decode_wcr : decode [0b01010100, 0x01] = .ok (.wcr 0b10100 0x01) := by decide

-- WBM 01111010
theorem test_decode_wbm : decode [0b01111010, 0x11, 0x22] = .ok (.wbm [0x11, 0x22]) := by decide

-- BFS 100aaaaa, a = 11111: ECON1
theorem test_decode_bfs : decode [0b10011111, 0x04] = .ok (.bfs 0b11111 0x04) := by decide

-- BFC 101aaaaa, a = 00000: EHT0 in bank 1
theorem test_decode_bfc : decode [0b10100000, 0xFF] = .ok (.bfc 0b00000 0xFF) := by decide

-- SRC 11111111
theorem test_decode_src : decode [0b11111111] = .ok .src := by decide

-- E8, E11, E14
theorem test_decode_reserved : ∀ b ∈ [(0x20 : Byte), 0x39, 0x3B, 0x3F, 0x60, 0x79, 0x7B, 0x7F, 0xC0, 0xDF, 0xE0, 0xFE],
    decode [b, 0x00] = .rejected .reservedOpcode := by decide

-- B21
theorem test_decode_wrong_length :
    decode [0x4C] = .rejected .frameLength ∧ decode [0x1C, 0x00, 0x00, 0x00] = .rejected .frameLength := by decide

-- the table's words, bit 0 the least significant bit of the first byte
theorem test_table_words : decodeTableWord 8 0x5C = some (.wcr 0x1C 0x00) ∧ decodeTableWord 8 0xFF = some .src ∧
    decodeTableWord 16 0x039F = some (.bfs 0x1F 0x03) := by decide

/-! ## The parameters at reset agree with the register map (R36, R37, R38) -/

theorem test_absent_locations_are_invalid : ∀ (b : Bank) (a : Addr),
    regValid Config.default (identifier (devMacmii Config.default b a) b a) =
      match regAt (locOf b a) with | .absent _ => false | _ => true := by decide

/-! ## The transactions, one step each (vectors B1 to B27) -/

-- B1: BSEL = 0, ERXRDPTL = 0xFA: the value stands in the second byte
theorem test_rcr_eth : nextHas (exec (.rcr 0x0C [0x00]) State.reset)
    (fun t => t.blk.rx.drop 1 = [0xFA] ∧ t.dev.regs.erxrdpt = 0x05FA ∧ t.blk.faults = []) := by decide

-- B2: BSEL = 3, a PHY read in flight: MISTAT in the third byte
theorem test_rcr_mii_dummy : nextHas (exec (.rcr 0x0A [0x00, 0x00]) (withPhyop (.rd 2) (inBank 3)))
    (fun t => t.blk.rx.drop 2 = [0x01]) := by decide

-- B14: the read wraps from ERXND to ERXST
theorem test_rbm_wraps : nextHas (exec (.rbm [0x00, 0x00, 0x00, 0x00])
      (withMem [(0x05FA, 0xA3), (0x05FB, 0xA4), (0x1FFE, 0xA1), (0x1FFF, 0xA2)]
        (withRegs fun r => { r with erdpt := 0x1FFE })))
    (fun t => t.blk.rx.drop 1 = [0xA1, 0xA2, 0xA3, 0xA4] ∧ t.dev.regs.erdpt = 0x05FC) := by decide

-- B15: no autoincrement
theorem test_rbm_without_autoincrement : nextHas (exec (.rbm [0x00, 0x00, 0x00])
      (withMem [(0x1FFE, 0xA1), (0x1FFF, 0xA2)] (withRegs fun r => { r with erdpt := 0x1FFE, econ2 := 0x00 })))
    (fun t => t.blk.rx.drop 1 = [0xA1, 0xA1, 0xA1] ∧ t.dev.regs.erdpt = 0x1FFE) := by decide

-- B26: a write of ERXSTL moves ERXWRPT with it
theorem test_wcr_erxst : nextHas (exec (.wcr 0x08 0x00) State.reset)
    (fun t => t.dev.regs.erxst = 0x0500 ∧ t.dev.regs.erxwrpt = 0x0500) := by decide

-- B7: PKTDEC decrements EPKTCNT and is not stored
theorem test_wcr_pktdec : nextHas (exec (.wcr 0x1E 0xC0) (withRegs fun r => { r with epktcnt := 2 }))
    (fun t => t.dev.regs.epktcnt = 1 ∧ t.dev.regs.econ2 = 0x80) := by decide

-- B17: the write does not wrap at the ring
theorem test_wbm_top_of_memory : nextHas (exec (.wbm [0x11, 0x22]) (withRegs fun r => { r with ewrpt := 0x1FFF }))
    (fun t => t.dev.mem = [(0x0000, 0x22), (0x1FFF, 0x11)] ∧ t.dev.regs.ewrpt = 0x0001) := by decide

-- B18: an empty write
theorem test_wbm_empty : nextHas (exec (.wbm []) (withRegs fun r => { r with ewrpt := 0x0040 }))
    (fun t => t.dev.mem = [] ∧ t.dev.regs.ewrpt = 0x0040) := by decide

-- B9
theorem test_bfs_econ1 : nextHas (exec (.bfs 0x1F 0x04) (inBank 1)) (fun t => t.dev.regs.econ1 = 0x05) := by decide

-- B13: refused on the MAC class
theorem test_bfs_mac : nextHas (exec (.bfs 0x00 0x02)
      (withRegs fun r => { r with econ1 := 0x02, plain := r.plain.set 64 0x0D }))
    (fun t => t.dev.regs.plain[64] = 0x0D ∧ t.blk.faults = [.bitopMacmii]) := by decide

-- B10
theorem test_bfc_econ1 : nextHas (exec (.bfc 0x1F 0x03) (withRegs fun r => { r with econ1 := 0x07 }))
    (fun t => t.dev.regs.econ1 = 0x04) := by decide

-- B12: address 0x00 in bank 1 is EHT0
theorem test_bfc_eht0 : nextHas (exec (.bfc 0x00 0xFF)
      (withRegs fun r => { r with econ1 := 0x01, plain := r.plain.set 32 0x5A }))
    (fun t => t.dev.regs.plain[32] = 0x00) := by decide

-- B19
theorem test_src : nextHas (exec .src (withMem [(0, 1)] (inBank 2)))
    (fun t => t.dev.regs.econ1 = 0x00 ∧ t.dev.regs.econ2 = 0x80 ∧ t.dev.mem = [] ∧ t.blk.settling) := by decide

-- B20: a frame while the device settles
theorem test_src_while_settling :
    nextHas (exec .src { State.reset with devSettling := true }) (fun t => t.blk.faults = [.settle]) := by decide

/-- The reset state with the block's settling delay running. -/
def settlingState : State := { State.reset with blk := { State.reset.blk with settling := true } }

-- B21, B22: start state any, so also while the device settles
theorem test_wrong_length_while_settling : nextHas (runFrame [0x4C] settlingState)
    (fun t => t.blk.faults = [.settle, .frameLength]) := by decide

theorem test_reserved_opcode_while_settling :
    nextHas (runFrame [0x3B, 0x00] { State.reset with devSettling := true })
      (fun t => t.blk.faults = [.settle, .reservedOpcode]) := by decide

/-! ## Power save (R170) -/

-- the frame that sets PWRSV has its effect; a frame after it is logged and either has its effect or any
theorem test_pwrsv_is_stored : nextHas (exec (.wcr 0x1E 0xA0) State.reset)
    (fun t => t.dev.regs.econ2 = 0xA0 ∧ pwrsv t.dev.regs) := by decide

theorem test_frame_in_power_save :
    let s := withRegs fun r => { r with econ2 := 0xA0 }
    ∃ t, exec (.wcr 0x0C 0x06) s = .next t ∧ t.blk.log.map Frame.tx = [[0x4C, 0x06]] ∧ t.blk.faults = [] ∧
      (t.dev.regs.erxrdpt = 0x0506 ∨ t.dev = anyDevice 0) := by
  intro s
  refine ⟨_, exec_eq _ _, ?_⟩
  rcases transact_cases [0x4C, 0x06] (outOf (.wcr 0x0C 0x06) s) s with ⟨_, e, _⟩ | ⟨_, _, e⟩ | ⟨_, e⟩
  · cases e
  · exact ⟨congrArg (fun t => t.blk.log.map Frame.tx) e, congrArg (fun t => t.blk.faults) e, .inr (congrArg State.dev e)⟩
  · exact ⟨congrArg (fun t => t.blk.log.map Frame.tx) e, congrArg (fun t => t.blk.faults) e,
      .inl ((congrArg (fun t => t.dev.regs.erxrdpt) e).trans (by decide))⟩

-- SRC resets the device in power save, and from the `any` a BusFault leaves (95_test_vectors.md B19)
theorem test_src_in_power_save : nextHas (exec .src (withRegs fun r => { r with econ2 := 0xA0 }))
    (fun t => t.dev.regs.econ2 = 0x80 ∧ t.dev.regs.erxst = 0x05FA ∧ t.blk.settling ∧ t.blk.faults = []) := by decide

theorem test_src_after_bus_fault :
    nextHas (run 3 (withAgenda [.busFail [], .frame [0x3A, 0x00], .frame [0xFF]] State.reset))
      (fun t => t.dev.regs.econ2 = 0x80 ∧ t.dev.regs.erxst = 0x05FA ∧ t.blk.err = .busFault) := by decide

/-! ## The two resets (R171) -/

-- the block alone: R47's values, a new run
theorem test_block_reset :
    nextHas (step (withAgenda [.blockReset] { inBank 2 with
        devSettling := true
        blk := { State.reset.blk with op := some .receivePacket, rxst := .body, faults := [.reentry], pollcnt := 3 } }))
      (fun t => t.blk.op = none ∧ t.blk.rxst = .idle ∧ t.blk.faults = [] ∧ t.blk.pollcnt = 0 ∧
        t.dev.regs.econ1 = 0x02 ∧ t.devSettling) := by decide

-- the device alone
theorem test_power_on :
    nextHas (step (withAgenda [.powerOn] (atStep .receivePacket 6 (withMem [(0, 1)] (inBank 2)))))
      (fun t => t.dev.regs.econ1 = 0x00 ∧ t.dev.mem = [] ∧ t.dev.clkrdy = false ∧ t.blk.op = some .receivePacket) := by
  decide

/-! ## The device's engines (B25, RX1 to RX4, RX10) -/

-- B25
theorem test_phy_write_completes :
    nextHas (step (withAgenda [.phy] (withPhyop (.wr 0x10 0x0100) State.reset)))
      (fun t => t.dev.pr[16] = 0x0100 ∧ t.dev.phyop = .none) := by decide

-- RX1 to RX3: P = 0x05FA, L = 4 and 5
theorem test_place :
    place .padEven ⟨0x05FA, 0x1FFF⟩ 0x05FA 4 = ⟨0x0604, 0x0604⟩ ∧
    place .padEven ⟨0x05FA, 0x1FFF⟩ 0x05FA 5 = ⟨0x0606, 0x0606⟩ ∧
    place .shortOdd ⟨0x05FA, 0x1FFF⟩ 0x05FA 5 = ⟨0x0604, 0x0605⟩ ∧
    place .padEven ⟨0x05FA, 0x1FFF⟩ 0x1FF8 10 = ⟨0x0602, 0x0602⟩ := by decide

-- RX1: the header bytes and the pointers after a deposit
theorem test_deposit :
    nextHas (step (withAgenda [.rx [1, 2, 3, 4] 0x2211]
        (withRegs fun r => { r with econ1 := 0x04, erxwrpt := 0x05FA })))
      (fun t => t.dev.mem = [(0x05FA, 0x04), (0x05FB, 0x06), (0x05FC, 0x04), (0x05FD, 0x00), (0x05FE, 0x11),
          (0x05FF, 0x22), (0x0600, 1), (0x0601, 2), (0x0602, 3), (0x0603, 4)] ∧
        t.dev.regs.erxwrpt = 0x0604 ∧ t.dev.regs.epktcnt = 1) := by decide

-- RX10: two bytes free
theorem test_overrun :
    nextHas (step (withAgenda [.rx [1] 0] (withRegs fun r => { r with
        econ1 := 0x04, erxrdpt := 0x0606, erxwrpt := 0x0604 })))
      (fun t => t.dev.regs.eir = 0x01 ∧ t.dev.regs.erxwrpt = 0x0604 ∧ t.dev.mem = []) := by decide

-- ERXWRPT outside the ring, equal to ERXRDPT: R142 gives the free space, and the packet is counted
theorem test_deposit_outside :
    nextHas (step (withAgenda [.rx [1] 0] (withRegs fun r => { r with econ1 := 0x04, erxrdpt := 0, erxwrpt := 0 })))
      (fun t => t.dev.regs.epktcnt = 1 ∧ t.dev.regs.eir = 0 ∧ t.dev.regs.erxst = 0x05FA) := by decide

-- the same with a ring of four bytes: no room
theorem test_overrun_outside :
    nextHas (step (withAgenda [.rx [1] 0] (withRegs fun r => { r with
        econ1 := 0x04, erxrdpt := 0, erxwrpt := 0, erxst := 0x1FFC })))
      (fun t => t.dev.regs.epktcnt = 0 ∧ t.dev.regs.eir = 0x01) := by decide

/-! ## The block's operations -/

-- A6, H1, I5: requests that are turned away
theorem test_invalid_requests :
    firstFailing Config.default (.readRegisterPair 0x1F) = some (.pairLow 0x1F) ∧
    firstFailing Config.default (.readPhy 32) = some (.phyAddr 32) ∧
    firstFailing Config.default (.readRegister 0x54) = some (.register 0x54) := by decide

theorem test_init_phy_address :
    firstFailing Config.default (.init { InitCfg.default with phyCfg1 := (40, 0x0100) }) = some (.phyAddr 40) := by
  decide

-- I2: 105 frames
theorem test_init_frames : (expansion Config.default (.init InitCfg.default)).length = 105 := by decide

-- V1, frame 1: step 1 of receivePacket is [9F 04]
theorem test_receive_first_frame : blockFrame (atStep .receivePacket 0 State.reset) = some [0x9F, 0x04] := by decide

/-! ## For each statement with hypotheses, a state and operands that meet them -/

theorem witness_DecodeEncodeRoundTrip : (Instr.rcr 0x1F [0x00, 0x00]).WellFormed := by decide

theorem witness_DecodedFrameIsItsEncoding : decode [0x0A, 0x00, 0x00] = .ok (.rcr 0x0A [0x00, 0x00]) := by decide

theorem witness_StepRunsTheDecodedFrame :
    ((withAgenda [.frame [0x9F, 0x04]] State.reset).agenda = .frame [0x9F, 0x04] :: [] ∧
      decode [0x9F, 0x04] = .ok (.bfs 0x1F 0x04)) ∧
    ((atStep .receivePacket 0 State.reset).agenda = [] ∧
      blockFrame (atStep .receivePacket 0 State.reset) = some [0x9F, 0x04]) ∧
    ((withAgenda [.block, .clock] (atStep .receivePacket 0 State.reset)).agenda = .block :: [.clock] ∧
      blockFrame { withAgenda [.block, .clock] (atStep .receivePacket 0 State.reset) with agenda := [.clock] } =
        some [0x9F, 0x04]) := by decide

/-- A state with a fault recorded, and the clock agent to move. -/
def faulty : State :=
  { withAgenda [.clock] State.reset with blk := { State.reset.blk with faults := [.reentry] } }

theorem witness_ModelFaultsAreNeverCleared :
    (∀ rest, faulty.agenda ≠ .blockReset :: rest) ∧ (∃ t, step faulty = .next t) ∧ .reentry ∈ faulty.blk.faults :=
  ⟨fun _ h => (by cases h), ⟨_, rfl⟩, by decide⟩

theorem witness_LogGrowsByAtMostOneFrame :
    (∀ rest, (withAgenda [.clock] State.reset).agenda ≠ .blockReset :: rest) ∧
    (∃ t, step (withAgenda [.clock] State.reset) = .next t) ∧
    nextHas (step (atStep .receivePacket 0 State.reset)) (fun t => t.blk.log.map Frame.tx = [[0x9F, 0x04]]) :=
  ⟨fun _ h => (by cases h), ⟨_, rfl⟩, by decide⟩

theorem witness_StepKeepsInvariant : faulty.Inv ∧ ∃ t, step faulty = .next t :=
  ⟨⟨by decide, by decide, by decide, by decide, List.length_replicate .., by decide, ⟨rfl, rfl⟩⟩, _, rfl⟩

theorem witness_TransactionWritesOnlyLogAndSettling :
    settlingState.blk.settling = true ∧ { State.reset with devSettling := true }.devSettling = true ∧ { State.reset with bus := some [0xAA] }.bus ≠ none ∧ State.reset.bus = none ∧
      Instr.wcr 0x1F 0x00 ≠ .src ∧ ModelFault.reentry ∈ faulty.blk.faults := by decide

theorem witness_FailedFrameRaisesBusFault :
    { State.reset with bus := some [0xAA] }.bus = some [0xAA] := rfl

theorem witness_OpcodeDispatch : ∀ (o : Op) (k : Nat),
    (atStep o k State.reset).blk.op = some o ∧ (atStep o k State.reset).blk.step = k := fun _ _ => ⟨rfl, rfl⟩

-- R73: the address 0xEA of an identifier is sent as 0x0A
theorem test_opcode_byte_drops_the_bank :
    blockFrame (atStep (.writeControlRegister 0xEA 0x11) 0 State.reset) = some [0x4A, 0x11] ∧
      blockFrame (atStep (.readRegister 0xEA) 2 State.reset) = some [0x0A, 0x00, 0x00] := by decide

theorem witness_RejectedFrameHasNoEffect_opcode :
    let s := withAgenda [.frame [0x3B, 0x00]] State.reset
    s.agenda = .frame [0x3B, 0x00] :: [] ∧ s.bus = none ∧ s.BusReady ∧ decode [0x3B, 0x00] = .rejected .reservedOpcode ∧
      Reject.reservedOpcode ≠ .empty := by decide

theorem witness_RejectedFrameHasNoEffect_length :
    let s := withAgenda [.frame [0x4C]] settlingState
    s.agenda = .frame [0x4C] :: [] ∧ s.bus = none ∧ s.blk.settling = true ∧ decode [0x4C] = .rejected .frameLength ∧
      Reject.frameLength ≠ .empty := by decide

theorem witness_OtherTransactionsLeaveMemory :
    State.reset.BusReady ∧ (∃ t, exec (.bfs 0x1F 0x04) State.reset = .next t) ∧
      (∀ data, Instr.bfs 0x1F 0x04 ≠ .wbm data) ∧ Instr.bfs 0x1F 0x04 ≠ .src :=
  ⟨by decide, ⟨_, rfl⟩, fun _ => by simp, by simp⟩

theorem witness_RcrReturnsTheRegister :
    State.reset.BusReady ∧ (inBank 2).BusReady ∧
    devMacmii State.reset.cfg (bsel State.reset.dev.regs) 0x00 = false ∧
    devMacmii (inBank 2).cfg (bsel (inBank 2).dev.regs) 0x1A = true ∧
    ¬ (([] : List Byte).length = 1 ∨ ([] : List Byte).length = 2) := by decide

theorem witness_DeviceReadValues :
    (bsel (inBank 3).dev.regs = 3 ∧ bsel (inBank 1).dev.regs = 1 ∧ bsel (inBank 0).dev.regs = 0) ∧
    (Config.default.pktif = .countNonZero ∧
      { Config.default with pktif := .stickyUntilCleared }.pktif = .stickyUntilCleared) ∧
    reservedZero State.reset.dev.regs ∧
    (∀ k, regAt (devLoc State.reset.dev.regs 0x00) ≠ .absent k) ∧
    (∀ k, regAt (devLoc (inBank 3).dev.regs 0x19) ≠ .absent k) :=
  ⟨by decide, ⟨rfl, rfl⟩, by decide,
    fun _ => by rw [show regAt (devLoc State.reset.dev.regs 0x00) = .ptrLo .erdpt by decide]; simp,
    fun _ => by rw [show regAt (devLoc (inBank 3).dev.regs 0x19) = .plain 121 by decide]; simp⟩

theorem witness_CommonRegistersIgnoreTheBank : (0x1B : Addr) ≤ 0x1B ∧ (0x1B : Addr) ≠ 0x1F ∧ (0x1B : Addr) ≤ 0x1E ∧
    (0x1E : Addr) ≠ 0x1F ∧ (0x1B : Addr) ≤ 0x1F := by decide

theorem witness_WcrWritesTheRegister :
    (∀ b, (inBank b).BusReady ∧ bsel (inBank b).dev.regs = b) ∧
    State.reset.cfg.pktif = .countNonZero ∧
    { State.reset with cfg := { State.reset.cfg with pktif := .stickyUntilCleared } }.BusReady ∧
    regAt (devLoc (inBank 0).dev.regs 0x10) = .plain 16 ∧ regAt (devLoc (inBank 3).dev.regs 0x19) = .plain 121 ∧
    regAt (devLoc (inBank 0).dev.regs 0x18) = .absent 24 ∧ regAt (devLoc (inBank 3).dev.regs 0x1A) = .absent 122 ∧
    (∀ x ∈ [(0x12 : Addr), 0x17], ¬ (bsel (inBank 1).dev.regs = 2 ∧ (0x12 : Addr) = x)) := by decide

theorem witness_WcrWritesPointerBytes : State.reset.BusReady ∧ bsel State.reset.dev.regs = 0 := by decide

theorem witness_WcrDrivesThePhyEngine :
    ((inBank 2).BusReady ∧ bsel (inBank 2).dev.regs = 2 ∧ (inBank 2).dev.phyop = .none) ∧
    ((withPhyop (.rd 2) (inBank 2)).BusReady ∧ bsel (withPhyop (.rd 2) (inBank 2)).dev.regs = 2 ∧
      (withPhyop (.rd 2) (inBank 2)).dev.phyop ≠ .none) ∧
    (0x01 : Byte).getLsbD 0 = true ∧ (0x02 : Byte).getLsbD 0 = false := by decide

theorem witness_BfsSetsBits :
    (∀ b, (inBank b).BusReady) ∧
    devMacmii (inBank 2).cfg (bsel (inBank 2).dev.regs) 0x1A = true ∧
    devMacmii (inBank 2).cfg (bsel (inBank 2).dev.regs) 0x1B = false ∧
    devMacmii (inBank 2).cfg (bsel (inBank 2).dev.regs) 0x1F = false := by decide

theorem witness_BfcClearsBits :
    (∀ b, (inBank b).BusReady) ∧
    devMacmii (inBank 3).cfg (bsel (inBank 3).dev.regs) 0x0A = true ∧
    devMacmii (inBank 3).cfg (bsel (inBank 3).dev.regs) 0x0B = false ∧
    devMacmii (inBank 3).cfg (bsel (inBank 3).dev.regs) 0x1F = false := by decide

theorem witness_RbmReadsTheStream :
    let s := withMem [(0x05FA, 0x11)] State.reset
    s.BusReady ∧ 0 < [(0x00 : Byte)].length ∧ Memory.read s.dev.mem s.dev.regs.erdpt.toNat = some 0x11 := by decide

theorem witness_RbmAdvancesRoundTheRing :
    let s := withRegs fun r => { r with erdpt := 0x1FFF }
    s.BusReady ∧ autoinc s.dev.regs = true ∧ s.dev.regs.erxst ≤ s.dev.regs.erdpt ∧
      s.dev.regs.erdpt ≤ s.dev.regs.erxnd := by decide

theorem witness_WbmStoresTheStream : State.reset.BusReady ∧ autoinc State.reset.dev.regs = true := by decide

theorem witness_WbmWithoutAutoincrement :
    let s := withRegs fun r => { r with econ2 := 0x00 }
    s.BusReady ∧ autoinc s.dev.regs = false ∧ ([0x11, 0x22] : List Byte).getLast? = some 0x22 := by decide

theorem witness_SrcResetsTheDevice :
    (withMem [(0, 1)] (inBank 2)).BusFree ∧ (withRegs fun r => { r with econ2 := 0xA0 }).BusFree ∧ (withAgenda [.powerOn] State.reset).agenda = .powerOn :: [] ∧
      (withAgenda [.blockReset] faulty).agenda = .blockReset :: [] := by decide

theorem witness_SystemResetOperation :
    let s := withRegs fun r => { r with econ2 := 0xA0 }
    s.agenda = [] ∧ s.BusFree ∧ s.blk.op = none := by decide

theorem witness_RequestWhileBusyIsRefused :
    let s := withAgenda [.request (.readPhy 0)] (atStep .receivePacket 2 State.reset)
    s.agenda = .request (.readPhy 0) :: [] ∧ s.blk.op = some .receivePacket := by decide

theorem witness_InvalidRegisterBeforeAnyFrame :
    let s := withAgenda [.request (.readRegister 0x18)] State.reset
    s.agenda = .request (.readRegister 0x18) :: [] ∧ s.Placed ∧ s.blk.op = none ∧
      firstFailing s.cfg (.readRegister 0x18) = some (.register 0x18) :=
  ⟨by decide, ⟨rfl, rfl⟩, by decide, by decide⟩

theorem witness_WhichRequestsAreInvalid :
    regValid Config.default 0x18 = false ∧ (0x1F : Byte) &&& 0x1F = 0x1F ∧ (0xFF : Byte) &&& 0x1F = 0x1F ∧
      (31 : Byte) < 32 ∧ firstFailing Config.default (.readRegisterPair 0x17) = some (.register 0x18) ∧
      firstFailing Config.default .receivePacket = none ∧
      firstFailing Config.default (.init InitCfg.default) = none := by decide

/-- A system reset in its settling delay. -/
def inReset : State :=
  { atStep .systemReset 1 State.reset with blk := { (atStep .systemReset 1 State.reset).blk with settling := true } }

theorem inReset_ownFrames : inReset.OwnFrames := ⟨by decide, by decide⟩

theorem witness_StepKeepsOwnFrames : inReset.OwnFrames ∧ ∃ t, step inReset = .next t :=
  ⟨inReset_ownFrames, _, rfl⟩

theorem witness_OwnFramesRaiseNoFrameFault :
    let s := withAgenda [.clock] settlingState
    let s' := { s with blk := { s.blk with op := some .systemReset, step := 1, faults := [.settle] } }
    s'.OwnFrames ∧ ∃ t, step s' = .next t ∧ .settle ∈ t.blk.faults :=
  ⟨⟨by decide, by decide⟩, _, rfl, by decide⟩

theorem witness_SequencesRaiseNoBitopFault :
    let s := atStep .receivePacket 0
      { State.reset with blk := { State.reset.blk with faults := [.bitopMacmii] } }
    s.agenda = [] ∧ s.blk.op = some .receivePacket ∧ s.blk.settling = false ∧
      (∀ a m, Op.receivePacket ≠ .bitFieldSet a m ∧ Op.receivePacket ≠ .bitFieldClear a m) ∧
      devMacmii s.cfg (bsel s.dev.regs) (idAddr s.cfg.regmap.econ1) = false ∧
      nextHas (step s) (fun t => .bitopMacmii ∈ t.blk.faults) :=
  ⟨rfl, rfl, rfl, fun _ _ => by simp, by decide, by decide⟩

theorem witness_SequencesRaiseNoBitopFault_block :
    let s := withAgenda [.block, .phy] (atStep .receivePacket 0
      { State.reset with blk := { State.reset.blk with faults := [.bitopMacmii] } })
    (∃ rest, s.agenda = .block :: rest) ∧ s.blk.op = some .receivePacket ∧ s.blk.settling = false ∧
      devMacmii s.cfg (bsel s.dev.regs) (idAddr s.cfg.regmap.econ1) = false ∧
      nextHas (step s) (fun t => .bitopMacmii ∈ t.blk.faults) :=
  ⟨⟨_, rfl⟩, rfl, rfl, by decide, by decide⟩

theorem reset_bankSelectDefault : BankSelectDefault State.reset.cfg := ⟨rfl, by decide⟩

theorem reset_awake : pwrsv State.reset.dev.regs = false := by decide

theorem reset_defaultMap : DefaultMap State.reset.cfg := ⟨rfl, rfl, rfl⟩

theorem witness_ReadRegisterFramesAndValue :
    State.reset.Quiet ∧ State.reset.blk.op = none ∧ BankSelectDefault State.reset.cfg ∧
      ∀ id ∈ [(0x00 : Byte), 0x1F, 0xEA], regValid State.reset.cfg id = true ∧
        devMacmii State.reset.cfg (idBank id) (idAddr id) = idMac id :=
  ⟨by decide, rfl, reset_bankSelectDefault, by decide⟩

theorem witness_WriteRegisterFrames :
    State.reset.Quiet ∧ State.reset.blk.op = none ∧ BankSelectDefault State.reset.cfg ∧
      (regValid State.reset.cfg 0x1B = true ∧ idAddr 0x1B ≠ 0x1F) ∧
      (regValid State.reset.cfg 0x1F = true ∧ idAddr 0x1F = 0x1F) :=
  ⟨by decide, rfl, reset_bankSelectDefault, by decide, by decide⟩

-- MAMXFL, of the MAC class (vector V3)
theorem witness_PlainPairRoundTrip_mac :
    State.reset.Quiet ∧ State.reset.blk.op = none ∧ BankSelectDefault State.reset.cfg ∧
      firstFailing State.reset.cfg (.readRegisterPair 0xCA) = none ∧
      (regAt (locOf (idBank 0xCA) (idAddr 0xCA)) = .plain 74 ∧
        regAt (locOf (idBank (0xCA + 1)) (idAddr (0xCA + 1))) = .plain 75) ∧
      (devMacmii State.reset.cfg (idBank 0xCA) (idAddr 0xCA) = idMac 0xCA ∧
        devMacmii State.reset.cfg (idBank (0xCA + 1)) (idAddr (0xCA + 1)) = idMac (0xCA + 1)) :=
  ⟨by decide, rfl, reset_bankSelectDefault, by decide, by decide, by decide⟩

-- EDMAST, of the ETH class (vector V3)
theorem witness_PlainPairRoundTrip_eth :
    State.reset.Quiet ∧ State.reset.blk.op = none ∧ BankSelectDefault State.reset.cfg ∧
      firstFailing State.reset.cfg (.readRegisterPair 0x10) = none ∧
      (regAt (locOf (idBank 0x10) (idAddr 0x10)) = .plain 16 ∧
        regAt (locOf (idBank (0x10 + 1)) (idAddr (0x10 + 1))) = .plain 17) ∧
      (devMacmii State.reset.cfg (idBank 0x10) (idAddr 0x10) = idMac 0x10 ∧
        devMacmii State.reset.cfg (idBank (0x10 + 1)) (idAddr (0x10 + 1)) = idMac (0x10 + 1)) :=
  ⟨by decide, rfl, reset_bankSelectDefault, by decide, by decide, by decide⟩

theorem witness_PointerPairRoundTrip :
    State.reset.Quiet ∧ State.reset.blk.op = none ∧ BankSelectDefault State.reset.cfg ∧
      ∀ id ∈ [(0x00 : Byte), 0x0C], id ∈ [(0x00 : Byte), 0x02, 0x04, 0x06, 0x08, 0x0A, 0x0C] ∧
        firstFailing State.reset.cfg (.readRegisterPair id) = none ∧
        devMacmii State.reset.cfg 0 (idAddr id) = false ∧ devMacmii State.reset.cfg 0 (idAddr (id + 1)) = false :=
  ⟨by decide, rfl, reset_bankSelectDefault, by decide⟩

theorem phy_schedule_awake {s : State} (h : pwrsv s.dev.regs = false) (n : Nat) :
    pwrsv (scheduled (fun _ => .phy) s n).dev.regs = false := by
  induction n with
  | zero => exact h
  | succ n ih =>
    rw [scheduled_succ, stepState_event rfl]
    simp only [eventState, onDevice_dev_awake (s := { scheduled (fun _ => Event.phy) s n with agenda := [] }) ih]
    exact (phyComplete_pwrsv _).trans ih

theorem witness_PhyCompletion :
    (withAgenda [.phy] State.reset).agenda = .phy :: [] ∧ (withAgenda [.phy] State.reset).dev.phyop = .none ∧
    (withAgenda [.phy] (withPhyop (.rd 31) State.reset)).dev.phyop = .rd 31 ∧
    (withAgenda [.phy] (withPhyop (.wr 0 7) State.reset)).dev.phyop = .wr 0 7 ∧
    (∀ p, pwrsv (withAgenda [.phy] (withPhyop p State.reset)).dev.regs = false) ∧
    FairPhy (fun _ => .phy) (withPhyop (.wr 0 7) State.reset) ∧
    ∀ n, pwrsv (scheduled (fun _ => .phy) (withPhyop (.wr 0 7) State.reset) n).dev.regs = false :=
  ⟨by decide, by decide, by decide, by decide, fun _ => reset_awake, fun n => ⟨n, le_rfl, .inl rfl⟩,
    phy_schedule_awake (by decide)⟩

theorem witness_ReadPhyReturnsThePhyRegister :
    State.reset.Quiet ∧ State.reset.blk.op = none ∧ DefaultMap State.reset.cfg ∧ State.reset.dev.phyop = .none ∧
      (31 : Byte).toNat < 32 := ⟨by decide, rfl, reset_defaultMap, rfl, by decide⟩

theorem witness_WritePhyStoresThePhyRegister :
    State.reset.Quiet ∧ State.reset.blk.op = none ∧ DefaultMap State.reset.cfg ∧ State.reset.dev.phyop = .none ∧
      (0 : Byte).toNat < 32 := ⟨by decide, rfl, reset_defaultMap, rfl, by decide⟩

-- vector V5: K = 3
theorem witness_BusyPhyIsPolledKPlusOneTimes :
    let s := withLimit 4 (withAgenda (List.replicate (3 * 3) .block ++ [.phy])
      (withPhyop (.rd 1) (atStep (.readPhy 1) 6 State.reset)))
    s.BusReady ∧ DefaultMap s.cfg ∧ s.blk.op = some (.readPhy 1) ∧ s.blk.step = 6 ∧ s.blk.pollcnt = 0 ∧
      s.dev.phyop ≠ .none ∧ (∀ n, s.cfg.pollLimit = some n → 3 < n) ∧
      s.agenda = List.replicate (3 * 3) .block ++ [.phy] :=
  ⟨⟨rfl, rfl, rfl⟩, reset_defaultMap, rfl, rfl, rfl, by decide, fun _ h => by cases h; decide, rfl⟩

theorem witness_BusyPhyIsPolledKPlusOneTimes_write :
    let s := withLimit 4 (withAgenda (List.replicate (3 * 3) .block ++ [.phy])
      (withPhyop (.wr 1 0x0100) (atStep (.writePhy 1 0x0100) 9 State.reset)))
    s.BusReady ∧ DefaultMap s.cfg ∧ s.blk.op = some (.writePhy 1 0x0100) ∧ s.blk.step = 9 ∧ s.blk.pollcnt = 0 ∧
      s.dev.phyop ≠ .none ∧ (∀ n, s.cfg.pollLimit = some n → 3 < n) ∧
      s.agenda = List.replicate (3 * 3) .block ++ [.phy] :=
  ⟨⟨rfl, rfl, rfl⟩, reset_defaultMap, rfl, rfl, rfl, by decide, fun _ h => by cases h; decide, rfl⟩

-- vector H5: n = 2
theorem witness_BusyPhyTimesOut :
    let s := withLimit 2 (withPhyop (.rd 2) (atStep (.readPhy 2) 6 State.reset))
    s.Quiet ∧ DefaultMap s.cfg ∧ s.blk.op = some (.readPhy 2) ∧ s.blk.step = 6 ∧ s.blk.pollcnt = 0 ∧
      s.dev.phyop ≠ .none ∧ s.cfg.pollLimit = some 2 ∧ 1 ≤ 2 :=
  ⟨⟨rfl, rfl, rfl, rfl⟩, reset_defaultMap, rfl, rfl, rfl, by decide, rfl, by decide⟩

theorem witness_BusyPhyTimesOut_write :
    let s := withLimit 1 (withPhyop (.wr 2 0xFFFF) (atStep (.writePhy 2 0xFFFF) 9 State.reset))
    s.Quiet ∧ DefaultMap s.cfg ∧ s.blk.op = some (.writePhy 2 0xFFFF) ∧ s.blk.step = 9 ∧ s.blk.pollcnt = 0 ∧
      s.dev.phyop ≠ .none ∧ s.cfg.pollLimit = some 1 ∧ 1 ≤ 1 :=
  ⟨⟨rfl, rfl, rfl, rfl⟩, reset_defaultMap, rfl, rfl, rfl, by decide, rfl, by decide⟩

-- vector RX8: n = 3
theorem witness_ReceiveTimesOut :
    let s := withLimit 3 (atStep .receivePacket 1 State.reset)
    s.Quiet ∧ DefaultMap s.cfg ∧ s.blk.op = some .receivePacket ∧ s.blk.step = 1 ∧ s.blk.pollcnt = 0 ∧
      pktif s.cfg s.dev.regs = false ∧ s.cfg.pollLimit = some 3 ∧ 1 ≤ 3 :=
  ⟨⟨rfl, rfl, rfl, rfl⟩, reset_defaultMap, rfl, rfl, rfl, by decide, rfl, by decide⟩

theorem witness_ReceiveTimesOut_steps_1_and_3 : ∀ k,
    (atStep .receivePacket k State.reset).Quiet ∧ DefaultMap (atStep .receivePacket k State.reset).cfg ∧
      (atStep .receivePacket k State.reset).blk.op = some .receivePacket ∧
      (atStep .receivePacket k State.reset).blk.step = k :=
  fun _ => ⟨⟨rfl, rfl, rfl, reset_awake⟩, reset_defaultMap, rfl, rfl⟩

theorem witness_ReceiveTimesOut_flag_set :
    let s := atStep .receivePacket 1 (withRegs fun r => { r with epktcnt := 1 })
    s.Quiet ∧ DefaultMap s.cfg ∧ s.blk.op = some .receivePacket ∧ s.blk.step = 1 ∧
      pktif s.cfg s.dev.regs = true := ⟨⟨rfl, rfl, rfl, rfl⟩, reset_defaultMap, rfl, rfl, by decide⟩

theorem witness_HeaderIsLatched :
    (atStep .receivePacket 5 State.reset).Quiet ∧
      (atStep .receivePacket 5 State.reset).blk.op = some .receivePacket ∧
      (atStep .receivePacket 5 State.reset).blk.step = 5 := ⟨⟨rfl, rfl, rfl, rfl⟩, rfl, rfl⟩

-- vector V1's header
theorem witness_BodyOverwritesTheBuffer_header :
    let h : Vector Byte 6 := #v[0x00, 0x06, 0x44, 0x00, 0x00, 0x00]
    let s := atStep .receivePacket 5 (withMem [(0x05FA, 0x00), (0x05FB, 0x06), (0x05FC, 0x44), (0x05FD, 0x00),
      (0x05FE, 0x00), (0x05FF, 0x00)] State.reset)
    s.Quiet ∧ s.blk.op = some .receivePacket ∧ s.blk.step = 5 ∧
      ∀ k : Fin 6, Memory.read s.dev.mem ((advanceRead s.dev.regs)^[k.val] s.dev.regs.erdpt).toNat = some h[k] :=
  ⟨⟨rfl, rfl, rfl, rfl⟩, rfl, rfl, by decide⟩

/-- A receive at a step, with this frame length latched. -/
def receiving (n : Nat) (flen : Word) : State :=
  let s := atStep .receivePacket n State.reset
  { s with blk := { s.blk with flen := flen } }

-- the longest frame that fits
theorem witness_BodyOverwritesTheBuffer :
    (receiving 6 1518).Quiet ∧ (receiving 6 1518).blk.op = some .receivePacket ∧ (receiving 6 1518).blk.step = 6 ∧
      (receiving 6 1518).blk.buf.length = (receiving 6 1518).cfg.bufCap ∧
      (receiving 6 1518).blk.flen.toNat ≤ (receiving 6 1518).cfg.bufCap :=
  ⟨⟨rfl, rfl, rfl, rfl⟩, rfl, rfl, List.length_replicate .., by decide⟩

theorem witness_OversizedFrameEndsTheReceive :
    (receiving 6 1519).agenda = [] ∧ (receiving 6 1519).blk.op = some .receivePacket ∧
      (receiving 6 1519).blk.step = 6 ∧ (receiving 6 1519).cfg.bufCap < (receiving 6 1519).blk.flen.toNat :=
  ⟨rfl, rfl, rfl, by decide⟩

theorem witness_ReceiveWritesThePointerBack :
    (receiving 7 68).Quiet ∧ DefaultMap (receiving 7 68).cfg ∧ (receiving 7 68).blk.op = some .receivePacket ∧
      (receiving 7 68).blk.step = 7 := ⟨⟨rfl, rfl, rfl, rfl⟩, reset_defaultMap, rfl, rfl⟩

theorem witness_NothingArrivesWhileDisabled :
    (withAgenda [.rx [1] 0] State.reset).agenda = .rx [1] 0 :: [] ∧
      rxen (withAgenda [.rx [1] 0] State.reset).dev.regs = false ∧
      pwrsv (withAgenda [.rx [1] 0] State.reset).dev.regs = false := by decide

/-- Enabled reception with an empty ring and a frame on its way. -/
def arriving (f : List Byte) : State :=
  withAgenda [.rx f 0] (withRegs fun r => { r with econ1 := 0x04, erxwrpt := 0x05FA })

-- vectors RX10 (no room) and RX12 (EPKTCNT = 255)
theorem witness_OverrunDropsTheFrame :
    (let s := withAgenda [.rx [1] 0] (withRegs fun r => { r with econ1 := 0x04, erxrdpt := 0x0606, erxwrpt := 0x0604 })
     s.agenda = .rx [1] 0 :: [] ∧ rxen s.dev.regs = true ∧ pwrsv s.dev.regs = false ∧ s.dev.regs.erxst ≤ s.dev.regs.erxwrpt ∧
      s.dev.regs.erxwrpt ≤ s.dev.regs.erxnd ∧ rxFree s.dev.regs ≤ rxNeed s.cfg.rxOdd 1) ∧
    (let s := withAgenda [.rx [1] 0] (withRegs fun r => { r with econ1 := 0x04, erxwrpt := 0x05FA, epktcnt := 255 })
     s.agenda = .rx [1] 0 :: [] ∧ rxen s.dev.regs = true ∧ pwrsv s.dev.regs = false ∧ s.dev.regs.erxst ≤ s.dev.regs.erxwrpt ∧
      s.dev.regs.erxwrpt ≤ s.dev.regs.erxnd ∧ s.dev.regs.epktcnt = 255) ∧
    (let s := withAgenda [.rx [1] 0] (withRegs fun r => { r with
        econ1 := 0x04, erxrdpt := 0, erxwrpt := 0, erxst := 0x1FFC })
     s.agenda = .rx [1] 0 :: [] ∧ rxen s.dev.regs = true ∧ pwrsv s.dev.regs = false ∧ s.dev.regs.erxrdpt = s.dev.regs.erxwrpt ∧
      ¬ s.dev.regs.erxst ≤ s.dev.regs.erxwrpt ∧ rxFree s.dev.regs ≤ rxNeed s.cfg.rxOdd 1) := by decide

theorem witness_DepositStaysInTheRing :
    let s := arriving [1, 2, 3, 4, 5]
    s.agenda = .rx [1, 2, 3, 4, 5] 0 :: [] ∧ rxen s.dev.regs = true ∧ pwrsv s.dev.regs = false ∧
      s.dev.regs.erxst ≤ s.dev.regs.erxwrpt ∧
      s.dev.regs.erxwrpt ≤ s.dev.regs.erxnd ∧ rxNeed s.cfg.rxOdd 5 < rxFree s.dev.regs ∧
      s.dev.regs.epktcnt ≠ 255 := by decide

theorem witness_DepositStaysInTheRing_sticky :
    { (arriving [1]).cfg with pktif := .stickyUntilCleared }.pktif = .stickyUntilCleared ∧
      (arriving [1]).cfg.pktif = .countNonZero := ⟨rfl, rfl⟩

-- the write pointer's value at reset
theorem witness_DepositStaysInTheRing_outside :
    let s := withAgenda [.rx [1] 0] (withRegs fun r => { r with econ1 := 0x04 })
    s.agenda = .rx [1] 0 :: [] ∧ rxen s.dev.regs = true ∧ pwrsv s.dev.regs = false ∧
      ¬ (s.dev.regs.erxst ≤ s.dev.regs.erxwrpt ∧ s.dev.regs.erxwrpt ≤ s.dev.regs.erxnd) := by decide

theorem witness_DepositedPacketIsReadBack :
    let s := arriving [1, 2]
    s.BusReady ∧ rxen s.dev.regs = true ∧ s.dev.regs.erxst ≤ s.dev.regs.erxwrpt ∧
      s.dev.regs.erxwrpt ≤ s.dev.regs.erxnd ∧ rxNeed s.cfg.rxOdd 2 < rxFree s.dev.regs ∧ s.dev.regs.epktcnt ≠ 255 ∧
      s.dev.regs.erdpt = s.dev.regs.erxwrpt ∧ autoinc s.dev.regs = true ∧ (List.replicate 8 (0 : Byte)).length = 6 + 2 := by
  decide

-- the source's ring, vector RX2
theorem witness_NextPacketPointerIsEven :
    0x05FA ≤ 0x05FA ∧ 0x05FA ≤ 0x1FFF ∧ 0x05FA % 2 = 0 ∧ (0x1FFF - 0x05FA + 1) % 2 = 0 := by decide

theorem witness_DepositNeverCatchesTheReadPointer :
    let r := (arriving [1]).dev.regs
    rxen r = true ∧ r.erxst ≤ r.erxwrpt ∧ r.erxwrpt ≤ r.erxnd ∧ r.erxst ≤ r.erxrdpt ∧ r.erxrdpt ≤ r.erxnd ∧
      rxNeed .padEven 1 < rxFree r ∧ r.epktcnt ≠ 255 := by decide

-- vector V7
theorem witness_SendPacketLayout :
    State.reset.Quiet ∧ State.reset.blk.op = none ∧ autoinc State.reset.dev.regs = true ∧
      15 + ([0xAA, 0xBB] : List Byte).length ≤ 8192 := by decide

theorem witness_ClockReadyEndsTheWait :
    let s := atStep (.init InitCfg.default) 21 State.reset
    s.Quiet ∧ DefaultMap s.cfg ∧ s.blk.op = some (.init InitCfg.default) ∧ s.blk.step = 21 ∧ s.cfg.pollLimit = none :=
  ⟨⟨rfl, rfl, rfl, rfl⟩, reset_defaultMap, rfl, rfl, rfl⟩

/-- The block and the clock agent in turn. -/
def inTurn : Schedule := fun n => if n % 2 = 0 then .block else .clock

theorem witness_ClockReadyEndsTheWait_schedule :
    FairClock inTurn ∧ (∀ n, ∃ m, n ≤ m ∧ inTurn m = .block) ∧ ∀ n, inTurn n = .block ∨ inTurn n = .clock :=
  ⟨fun n => ⟨2 * n + 1, by omega, if_neg (by omega)⟩, fun n => ⟨2 * n, by omega, if_pos (by omega)⟩,
    fun n => (em (n % 2 = 0)).imp (fun h => if_pos h) (fun h => if_neg h)⟩

end Sys2Proof.Tests
end

section
/-! ## The bus log and the frame a step runs (R14, R18, R28, R69) -/

namespace Sys2Proof.Machine

/-! ### A frame on the bus log -/

/-- A frame is logged with the bytes sent and the bytes received, whatever becomes of it (R14, R28, R156). -/
theorem transact_log (tx : List Byte) (out : DevOut) (s : State) :
    (transact tx out s).blk.log = s.blk.log ++ [⟨tx, (transact tx out s).blk.rx⟩] := by
  rcases transact_cases tx out s with ⟨_, -, h⟩ | ⟨-, -, h⟩ | ⟨-, h⟩ <;> simp [h]

/-- As many bytes are received as sent, also when the bus fails the frame (R14, R156). -/
theorem transact_rx_length {tx : List Byte} {out : DevOut} (h : out.rx.length = tx.length) (s : State) :
    (transact tx out s).blk.rx.length = tx.length := by
  rcases transact_cases tx out s with ⟨_, -, e⟩ | ⟨-, -, e⟩ | ⟨-, e⟩
  · simp [e, failedOut]
  · simp [e, anyOut]
  · simpa [e] using h

/-- The device answers every byte of a transaction with one (R14, R74). -/
theorem outOf_rx_length (i : Instr) (s : State) : (outOf i s).rx.length = (encode i).length := by
  cases i with
  | rcr a fill =>
    simp only [outOf, rcrOut]
    split <;> simp_all [encode, noEffect]
  | rbm fill => simp [outOf, rbmOut, readBuffer_length, encode]
  | bfs a m | bfc a m =>
    simp only [outOf, bitFieldOut]
    split <;> simp [noEffect, writeOut]
  | wcr a v | wbm data | src => exact anyResponse_length _ s

/-- Every transaction logs its own frame, and no other (R14, R88). -/
theorem execState_log (i : Instr) (s : State) :
    (execState i s).blk.log = s.blk.log ++ [⟨encode i, (execState i s).blk.rx⟩] := by
  by_cases hi : i = .src
  · subst hi
    rcases execState_src s with h | h <;> rw [h] <;> exact transact_log [0xFF] _ s
  · rw [execState_of_ne_src hi]
    exact transact_log _ _ s

/-- Every transaction receives as many bytes as it sends (R14). -/
theorem execState_rx_length (i : Instr) (s : State) : (execState i s).blk.rx.length = (encode i).length := by
  have hlen := transact_rx_length (outOf_rx_length i s) s
  by_cases hi : i = .src
  · subst hi
    rcases execState_src s with h | h <;> rw [h] <;> exact hlen
  · rwa [execState_of_ne_src hi]

/-- Between two states x[LOG] is unchanged, or it grew by one frame with as many bytes received as sent (R14, R28). -/
def LogGrows (s t : State) : Prop :=
  t.blk.log = s.blk.log ∨ ∃ f : Frame, f.tx ≠ [] ∧ f.rx.length = f.tx.length ∧ t.blk.log = s.blk.log ++ [f]

/-- Growth is about x[LOG] alone: what the block does after a frame does not matter to it. -/
theorem LogGrows.congr_right {s t u : State} (h : LogGrows s t) (hu : u.blk.log = t.blk.log) : LogGrows s u := by
  unfold LogGrows
  rwa [hu]

theorem transact_logGrows {tx : List Byte} {out : DevOut} (htx : tx ≠ []) (h : out.rx.length = tx.length)
    (s : State) : LogGrows s (transact tx out s) :=
  .inr ⟨_, htx, transact_rx_length h s, transact_log tx out s⟩

theorem execState_logGrows (i : Instr) (s : State) : LogGrows s (execState i s) :=
  .inr ⟨_, encode_ne_nil i, execState_rx_length i s, execState_log i s⟩

/-- A frame that is rejected for its opcode byte or its length has a first byte (R69). -/
theorem ne_nil_of_decode_rejected {tx : List Byte} {why : Reject} (h : decode tx = .rejected why)
    (hw : why ≠ .empty) : tx ≠ [] := by
  rintro rfl
  exact hw (Decoded.rejected.inj h).symm

/-- A frame's bytes are logged once, also when the device rejects them (R69, R78, R80). -/
theorem frameState_logGrows (tx : List Byte) (s : State) : LogGrows s (frameState tx s) := by
  have rejected : ∀ {why : Reject} (f : ModelFault), decode tx = .rejected why → why ≠ .empty →
      LogGrows s (transact tx (noEffect f tx s) s) := fun f hd hw =>
    transact_logGrows (ne_nil_of_decode_rejected hd hw) (anyResponse_length tx s) s
  unfold frameState
  split
  next i _ => exact execState_logGrows i s
  next => exact .inl rfl
  next hd => exact rejected _ hd (by decide)
  next hd => exact rejected _ hd (by decide)

/-- The block's move sends at most one frame (R18). -/
theorem blockState_logGrows (s : State) : LogGrows s (blockState s) := by
  unfold blockState
  split
  next tx _ => exact (frameState_logGrows tx s).congr_right (afterFrame_log _)
  next => exact .inl (blockQuiet_log s)

/-- Only a frame touches x[LOG], and only a block reset empties it (R28, R47). -/
theorem eventState_logGrows {e : Event} (he : e ≠ .blockReset) (s : State) : LogGrows s (eventState e s) := by
  cases e with
  | block => exact blockState_logGrows s
  | frame tx => exact frameState_logGrows tx s
  | blockReset => exact absurd rfl he
  | request o => exact .inl (request_log o s)
  | callerStore k v => exact .inl (callerStore_log k v s)
  | busFail | phy | clock | rx | powerOn => exact .inl rfl

/-! ### The transaction a frame decodes to -/

theorem frameState_of_decode {tx : List Byte} {i : Instr} (h : decode tx = .ok i) (s : State) :
    frameState tx s = execState i s := by
  simp only [frameState, h]

/-- The block's move with a frame to send: the transaction, then what the block does with the response (R18). -/
theorem blockState_of_decode {s : State} {tx : List Byte} {i : Instr} (hf : blockFrame s = some tx)
    (hd : decode tx = .ok i) : blockState s = afterFrame (execState i s) := by
  simp only [blockState, hf, frameState_of_decode hd]

/-! ### The statements -/

/-- Settles O9: a frame, a move of the block and each event but a block reset grow the log by at most one frame. -/
theorem logGrowsByAtMostOneFrame : Obligations.LogGrowsByAtMostOneFrame := by
  intro s t hreset hstep
  rcases step_cases hstep with ⟨-, rfl⟩ | ⟨e, rest, hagenda, rfl⟩
  · exact blockState_logGrows s
  · have he : e ≠ .blockReset := by
      rintro rfl
      exact hreset rest hagenda
    exact eventState_logGrows he { s with agenda := rest }

/-- Settles O6: a step is the move of its event, and a move with a frame runs the transaction the frame decodes to. -/
theorem stepRunsTheDecodedFrame : Obligations.StepRunsTheDecodedFrame := by
  refine ⟨fun s tx rest i hagenda hd => ?_, fun s tx i hagenda hf hd => ?_, fun s tx rest i hagenda hf hd => ?_⟩
  · rw [step_eq, stepState_event hagenda, exec_eq]
    exact congrArg _ (frameState_of_decode hd _)
  · refine ⟨_, exec_eq i s, ?_⟩
    rw [step_eq, stepState_idle hagenda, blockState_of_decode hf hd]
  · refine ⟨_, exec_eq i _, ?_⟩
    rw [step_eq, stepState_event hagenda]
    exact congrArg _ (blockState_of_decode hf hd)

end Sys2Proof.Machine
end

section
/-! ## The invariant of the machine, and its reset state (R17 to R48, R161) -/

namespace Sys2Proof.Machine

/-! ### What the invariant is about -/

/-- A block that stands at a step stands inside its operation's expansion (R18). -/
theorem State.Placed.step_lt {s : State} {o : Op} (h : s.Placed) (ho : s.blk.op = some o) :
    s.blk.step < (expansion s.cfg o).length := by
  simp only [State.Placed, ho] at h
  obtain ⟨m, hm, -⟩ := h
  exact (List.getElem?_eq_some_iff.1 hm).1

/-- A move of the device's side alone: the invariant asks for canonical memory and absent bits 0. -/
theorem State.Inv.of_dev {s t : State} (h : s.Inv) (hcfg : t.cfg = s.cfg) (hblk : t.blk = s.blk)
    (hmem : Memory.wf t.dev.mem) (hres : reservedZero t.dev.regs) : t.Inv where
  mem_wf := hmem
  reserved := hres
  image_reserved := hcfg ▸ h.image_reserved
  cs_low := hblk ▸ h.cs_low
  buf_length := by rw [hblk, hcfg, h.buf_length]
  faults_nodup := hblk ▸ h.faults_nodup
  placed := by
    have hp := h.placed
    unfold State.Placed at hp ⊢
    rwa [hblk, hcfg]

/-- A move of the block alone: the invariant asks for chip select low, a buffer of the same length, a fault set without
repeats and a block in its place. -/
theorem State.Inv.of_blk {s t : State} (h : s.Inv) (hcfg : t.cfg = s.cfg) (hdev : t.dev = s.dev)
    (hcs : t.blk.cs = false) (hbuf : t.blk.buf.length = s.blk.buf.length) (hfaults : t.blk.faults.Nodup)
    (hplaced : t.Placed) : t.Inv where
  mem_wf := hdev ▸ h.mem_wf
  reserved := hdev ▸ h.reserved
  image_reserved := hcfg ▸ h.image_reserved
  cs_low := hcs
  buf_length := by rw [hbuf, hcfg, h.buf_length]
  faults_nodup := hfaults
  placed := hplaced

theorem recordFault_inv {s : State} (h : s.Inv) (f : ModelFault) : (recordFault f s).Inv :=
  h.of_blk rfl rfl h.cs_low rfl (insertFault_nodup h.faults_nodup f) h.placed

theorem raise_inv {s : State} (h : s.Inv) (e : Err) : (raise e s).Inv :=
  h.of_blk rfl rfl h.cs_low rfl h.faults_nodup (raise_placed e s)

/-! ### Frames and transactions -/

/-- Chip select is low again, and the device is what its side made of the frame (R14). -/
theorem endFrame_inv {s : State} (h : s.Inv) (tx : List Byte) {out : DevOut} (hmem : Memory.wf out.dev.mem)
    (hres : reservedZero out.dev.regs) : (endFrame tx out s).Inv where
  mem_wf := hmem
  reserved := hres
  image_reserved := h.image_reserved
  cs_low := rfl
  buf_length := h.buf_length
  faults_nodup := insertFaults_nodup h.faults_nodup _
  placed := h.placed

/-- A whole frame: of what its beginning did only F_SETTLE is left, for its end releases chip select (R14, R88). -/
theorem endFrame_beginFrame (tx : List Byte) (out : DevOut) (s : State) :
    endFrame tx out (beginFrame s) = endFrame tx out (if s.settling then recordFault .settle s else s) := by
  unfold beginFrame
  split <;> rfl

theorem endFrame_beginFrame_inv {s : State} (h : s.Inv) (tx : List Byte) {out : DevOut} (hmem : Memory.wf out.dev.mem)
    (hres : reservedZero out.dev.regs) : (endFrame tx out (beginFrame s)).Inv := by
  rw [endFrame_beginFrame]
  split
  · exact endFrame_inv (recordFault_inv h _) tx hmem hres
  · exact endFrame_inv h tx hmem hres

/-- A frame keeps the invariant, whether the bus fails it, its effect is `any`, or the device has its effect. -/
theorem transact_inv {s : State} (h : s.Inv) (tx : List Byte) {out : DevOut} (hmem : Memory.wf out.dev.mem)
    (hres : reservedZero out.dev.regs) : (transact tx out s).Inv := by
  rcases transact_cases tx out s with ⟨received, -, e⟩ | ⟨-, -, e⟩ | ⟨-, e⟩ <;> rw [e]
  · have failed := endFrame_beginFrame_inv h tx (out := failedOut tx received s) Memory.wf_nil (anyDevice_reserved _)
    refine raise_inv ?_ .busFault
    exact failed.of_dev rfl rfl failed.mem_wf failed.reserved
  · exact endFrame_beginFrame_inv h tx Memory.wf_nil (anyDevice_reserved _)
  · exact endFrame_inv h tx hmem hres

theorem execState_inv {s : State} (h : s.Inv) (i : Instr) : (execState i s).Inv := by
  obtain ⟨hmem, hres⟩ := outOf_keeps i s h.mem_wf h.reserved h.image_reserved
  have frame := transact_inv h (encode i) hmem hres
  by_cases hi : i = .src
  · subst hi
    rcases execState_src s with e | e <;> rw [e]
    · exact frame
    · exact frame.of_blk rfl rfl frame.cs_low rfl frame.faults_nodup frame.placed
  · rwa [execState_of_ne_src hi]

/-- A frame's bytes keep the invariant, also when the device rejects them (R78, R80). -/
theorem frameState_inv {s : State} (h : s.Inv) (tx : List Byte) : (frameState tx s).Inv := by
  unfold frameState
  split
  next i _ => exact execState_inv h i
  next => exact h
  next => exact transact_inv h tx h.mem_wf h.reserved
  next => exact transact_inv h tx h.mem_wf h.reserved

/-! ### The block's move -/

/-- The caller's buffer is overwritten, never lengthened or cut (R27, R130, R131). -/
@[simp] theorem consume_buf_length (o : Op) (a : Act) (s : State) :
    (consume o a s).blk.buf.length = s.blk.buf.length := by
  unfold consume
  split
  case h_6 => split <;> simp
  all_goals simp

theorem consume_inv {s : State} {o : Op} (h : s.Inv) (ho : s.blk.op = some o) (a : Act) :
    (consume o a s).Inv :=
  h.of_blk (consume_cfg o a s) (consume_dev o a s) ((consume_cs o a s).trans h.cs_low) (consume_buf_length o a s)
    ((consume_faults o a s).symm ▸ h.faults_nodup) (consume_placed ho (h.placed.step_lt ho) a)

theorem afterFrame_inv {s : State} (h : s.Inv) : (afterFrame s).Inv := by
  unfold afterFrame
  split
  next ho _ => exact consume_inv h ho _
  next => exact h

theorem rxOverflow_inv {s : State} (h : s.Inv) : (rxOverflow s).Inv :=
  h.of_blk rfl rfl h.cs_low rfl (insertFault_nodup h.faults_nodup _) (rxOverflow_placed s)

theorem settle_inv {s : State} (h : s.Inv) : (settle s).Inv :=
  h.of_blk rfl rfl h.cs_low rfl h.faults_nodup h.placed

theorem blockQuiet_inv {s : State} (h : s.Inv) : (blockQuiet s).Inv := by
  unfold blockQuiet
  split
  next ho _ =>
    split
    · exact consume_inv h ho .settle
    · exact rxOverflow_inv h
  next => exact h
  next =>
    split
    · exact settle_inv h
    · exact h

theorem blockState_inv {s : State} (h : s.Inv) : (blockState s).Inv := by
  unfold blockState
  split
  next tx _ => exact afterFrame_inv (frameState_inv h tx)
  next => exact blockQuiet_inv h

/-! ### The other agents' moves -/

/-- A request is refused while an operation runs, fails a check, or puts the block at the first step (R158, R162). -/
theorem request_inv {s : State} (h : s.Inv) (o : Op) : (request o s).Inv := by
  unfold request
  split
  next => exact recordFault_inv h _
  next =>
    split
    · exact raise_inv h _
    · exact h.of_blk (by simp) (by simp) (by simpa using h.cs_low) (by simp) (by simpa using h.faults_nodup)
        (goto_placed (s := { s with blk := { s.blk with op := some o } }) rfl (expansion_pos s.cfg o) true)

/-- An engine's step, with its effect or in a device that dozes (R64, R170). -/
theorem onDevice_inv {s : State} (h : s.Inv) {f : Device → Device} (hmem : Memory.wf (f s.dev).mem)
    (hres : reservedZero (f s.dev).regs) : (onDevice f s).Inv := by
  refine h.of_dev rfl rfl ?_ ?_ <;> rw [onDevice_dev] <;> split
  · exact Memory.wf_nil
  · exact hmem
  · exact anyDevice_reserved _
  · exact hres

theorem eventState_inv {s : State} (h : s.Inv) (e : Event) : (eventState e s).Inv := by
  cases e with
  | block => exact blockState_inv h
  | request o => exact request_inv h o
  | callerStore k v => exact h.of_blk rfl rfl h.cs_low List.length_set h.faults_nodup h.placed
  | busFail received => exact h.of_dev rfl rfl h.mem_wf h.reserved
  | frame tx => exact frameState_inv h tx
  | phy => exact onDevice_inv h ((phyComplete_mem s.dev).symm ▸ h.mem_wf) (phyComplete_reserved h.reserved)
  | clock => exact onDevice_inv h h.mem_wf h.reserved
  | rx f status => exact onDevice_inv h (rxArrive_mem_wf h.mem_wf) (rxArrive_reserved h.reserved)
  | powerOn => exact h.of_dev rfl rfl Memory.wf_nil h.image_reserved
  | blockReset => exact h.of_blk rfl rfl rfl rfl List.nodup_nil ⟨rfl, rfl⟩

/-! ### The statements -/

/-- Settles O10: the block's move and the move of every event keep the invariant; taking an event off the agenda does
not touch it. -/
theorem stepKeepsInvariant : Obligations.StepKeepsInvariant := by
  intro s t h hstep
  rcases step_cases hstep with ⟨-, rfl⟩ | ⟨e, rest, -, rfl⟩
  · exact blockState_inv h
  · have taken : State.Inv { s with agenda := rest } := h.of_dev rfl rfl h.mem_wf h.reserved
    exact eventState_inv taken e

/-- Settles O11, field by field. -/
theorem resetMeetsInvariant : Obligations.ResetMeetsInvariant where
  mem_wf := Memory.wf_nil
  reserved := by decide
  image_reserved := by decide
  cs_low := rfl
  buf_length := List.length_replicate
  faults_nodup := List.nodup_nil
  placed := ⟨rfl, rfl⟩

/-- Settles O12: the reset values are read off the reset state. -/
theorem resetValues : Obligations.ResetValues := by
  unfold Obligations.ResetValues
  decide

end Sys2Proof.Machine
end

section
/-! ## The locations common to every bank (R29, R51, R89) -/

namespace Sys2Proof.Machine

/-- A location at 0x1B or above is bank 0's, whatever bank is selected. -/
theorem devLoc_common {a : Addr} (ha : 0x1B ≤ a) (r : DevRegs) : devLoc r a = ⟨0, a⟩ :=
  if_neg (show ¬ a ≤ 0x1A by bv_omega)

/-- The register at a common location but ECON1's (R36). -/
theorem regAt_common {a : Addr} (ha : 0x1B ≤ a) (hne : a ≠ 0x1F) :
    regAt ⟨0, a⟩ = .eie ∨ regAt ⟨0, a⟩ = .eir ∨ regAt ⟨0, a⟩ = .estat ∨ regAt ⟨0, a⟩ = .econ2 := by
  revert a
  decide

theorem regAt_econ1 : regAt ⟨0, 0x1F⟩ = .econ1 := rfl

/-- Another byte in ECON1 does not change what a common location but ECON1's reads. -/
theorem devRead_with_econ1 {a : Addr} (ha : 0x1B ≤ a) (hne : a ≠ 0x1F) (c : Config) (d : Device) (e free : Byte) :
    devRead c { d with regs := { d.regs with econ1 := e } } a free = devRead c d a free := by
  simp only [devRead, devLoc_common ha]
  rcases regAt_common ha hne with h | h | h | h
  · rw [h]
  · rw [h]
    rfl
  · rw [h]
  · rw [h]

/-- Another byte in ECON1 stays there under a write of a common location but ECON1's, whose effect is the same. -/
theorem devWrite_with_econ1 {a : Addr} (ha : 0x1B ≤ a) (hne : a ≠ 0x1F) (c : Config) (draw : Nat) (v e : Byte)
    (d : Device) : devWrite c draw a v { d with regs := { d.regs with econ1 := e } } =
      ⟨{ (devWrite c draw a v d).dev with regs := { (devWrite c draw a v d).dev.regs with econ1 := e } },
        (devWrite c draw a v d).faults⟩ := by
  simp only [devWrite, devLoc_common ha]
  rcases regAt_common ha hne with h | h | h | h <;> rw [h]

/-- ECON1 reads the byte it holds. -/
theorem devRead_econ1 (c : Config) (d : Device) (free : Byte) : devRead c d 0x1F free = d.regs.econ1 := by
  simp only [devRead, devLoc_common (by decide : (0x1B : Addr) ≤ 0x1F), regAt_econ1]

/-- A write of ECON1 stores the byte and does nothing else. -/
theorem devWrite_econ1 (c : Config) (draw : Nat) (v : Byte) (d : Device) :
    devWrite c draw 0x1F v d = ⟨{ d with regs := { d.regs with econ1 := v } }, []⟩ := by
  simp only [devWrite, devLoc_common (by decide : (0x1B : Addr) ≤ 0x1F), regAt_econ1]

/-- Settles O20: a common location is bank 0's in every bank, so only ECON1's own reads and writes see the byte in
ECON1. -/
theorem commonRegistersIgnoreTheBank : Obligations.CommonRegistersIgnoreTheBank := by
  intro c d a e ha
  refine ⟨?_, fun hne free => ?_, ?_, fun hne draw v => ?_, ?_⟩
  · rw [devLoc_common ha, devLoc_common ha]
  · exact devRead_with_econ1 ha hne c d e free
  · rintro rfl free
    exact ⟨devRead_econ1 c d free, devRead_econ1 c _ free⟩
  · exact devWrite_with_econ1 ha hne c draw v e d
  · rintro rfl draw v
    simp only [devWrite_econ1, and_self]

end Sys2Proof.Machine
end

section
/-! ## The block's own frames, and the settling delay (R65, R105, R148) -/

namespace Sys2Proof.Machine

/-! ### The steps of an operation -/

/-- A step of any operation but a system reset: it is not the settling delay, and a fixed transaction it sends is
well-formed and not SRC. -/
def Act.Ordinary : Act → Prop
  | .send i => i.WellFormed ∧ i ≠ .src
  | .read _ _ _ => True
  | .readBytes _ => True
  | .poll _ _ _ => True
  | .header => True
  | .body => True
  | .writeNpp _ _ => True
  | .settle => False

/-- Every step of a list is ordinary. -/
def Ordinary (ms : List Micro) : Prop := ∀ m ∈ ms, m.act.Ordinary

@[simp] theorem ordinary_append {ms ns : List Micro} : Ordinary (ms ++ ns) ↔ Ordinary ms ∧ Ordinary ns :=
  List.forall_mem_append

@[simp] theorem ordinary_inPhySt {p : PhySt} {ms : List Micro} : Ordinary (inPhySt p ms) ↔ Ordinary ms :=
  List.forall_mem_map

@[simp] theorem ordinary_inRxSt {r : RxSt} {ms : List Micro} : Ordinary (inRxSt r ms) ↔ Ordinary ms :=
  List.forall_mem_map

theorem ordinary_flatMap {α : Type} {f : α → List Micro} (h : ∀ a, Ordinary (f a)) (as : List α) :
    Ordinary (as.flatMap f) := by
  intro m hm
  obtain ⟨a, -, ha⟩ := List.mem_flatMap.1 hm
  exact h a m ha

@[simp] theorem ordinary_readReg (g : RegMap) (id : Byte) (k : Sink) : Ordinary (readReg g id k) := by
  simp [Ordinary, readReg, bankSwitch, Act.Ordinary, Instr.WellFormed]

@[simp] theorem ordinary_writeReg (g : RegMap) (id v : Byte) : Ordinary (writeReg g id v) := by
  simp [Ordinary, writeReg, bankSwitch, Act.Ordinary, Instr.WellFormed]

@[simp] theorem ordinary_pollFlag (g : RegMap) (id mask : Byte) (cond : Until) :
    Ordinary (pollFlag g id mask cond) := by
  simp [Ordinary, pollFlag, Act.Ordinary, Instr.WellFormed]

@[simp] theorem ordinary_writeNppPair (g : RegMap) (id : Byte) : Ordinary (writeNppPair g id) := by
  simp [Ordinary, writeNppPair, bankSwitch, Act.Ordinary, Instr.WellFormed]

@[simp] theorem ordinary_readPair (g : RegMap) (id : Byte) : Ordinary (readPair g id) := by
  simp [readPair]

@[simp] theorem ordinary_writePair (g : RegMap) (id : Byte) (v : Word) : Ordinary (writePair g id v) := by
  simp [writePair]

@[simp] theorem ordinary_readPhySteps (g : RegMap) (p : Byte) : Ordinary (readPhySteps g p) := by
  simp [readPhySteps]

@[simp] theorem ordinary_writePhySteps (g : RegMap) (p : Byte) (v : Word) : Ordinary (writePhySteps g p v) := by
  simp [writePhySteps]

theorem ordinary_receiveSteps (g : RegMap) : Ordinary (receiveSteps g) := by
  simp only [receiveSteps, ordinary_append, ordinary_inRxSt, ordinary_pollFlag, ordinary_writeNppPair]
  simp [Ordinary, Act.Ordinary, Instr.WellFormed]

theorem ordinary_sendSteps (c : Config) (dst : Mac) (payload : List Byte) : Ordinary (sendSteps c dst payload) := by
  simp [Ordinary, sendSteps, Act.Ordinary, Instr.WellFormed]

theorem ordinary_initSteps (g : RegMap) (i : InitCfg) : Ordinary (initSteps g i) := by
  simp [initSteps, ordinary_flatMap]

/-- Only a system reset sends SRC or waits for the settling delay (R104, R148). -/
theorem expansion_ordinary {o : Op} (h : o ≠ .systemReset) (c : Config) : Ordinary (expansion c o) := by
  cases o with
  | systemReset => exact absurd rfl h
  | readRegister id => exact ordinary_readReg _ id _
  | writeRegister id v => exact ordinary_writeReg _ id v
  | readRegisterPair id => exact ordinary_readPair _ id
  | writeRegisterPair id v => exact ordinary_writePair _ id v
  | readPhy p => exact ordinary_readPhySteps _ p
  | writePhy p v => exact ordinary_writePhySteps _ p v
  | receivePacket => exact ordinary_receiveSteps _
  | sendPacket dst payload => exact ordinary_sendSteps c dst payload
  | init i => exact ordinary_initSteps _ i
  | readControlRegister | readBufferMemory | writeControlRegister | writeBufferMemory | bitFieldSet | bitFieldClear =>
    simp [Ordinary, expansion, Act.Ordinary, Instr.WellFormed]

/-! ### The frame of a step -/

/-- A well-formed transaction's frame decodes to it (R71, R80). -/
theorem decode_encode {i : Instr} (h : i.WellFormed) : decode (encode i) = .ok i := by
  cases i with
  | rcr a fill =>
    rcases h with h | h
    · obtain ⟨f, rfl⟩ := List.length_eq_one_iff.1 h
      simp [encode, decode, decodePayload]
    · obtain ⟨f, g, rfl⟩ := List.length_eq_two.1 h
      simp [encode, decode, decodePayload]
  | rbm | wcr | wbm | bfs | bfc | src => simp [encode, decode, decodePayload]

/-- The step of the operation whose transaction the block sends. -/
theorem exists_micro_of_blockInstr {s : State} {i : Instr} (h : blockInstr s = some i) :
    ∃ o m, s.blk.op = some o ∧ (expansion s.cfg o)[s.blk.step]? = some m ∧ actInstr s m.act = some i := by
  obtain ⟨m, hm, hi⟩ := Option.bind_eq_some_iff.1 h
  unfold currentMicro at hm
  split at hm
  next => cases hm
  next o ho => exact ⟨o, m, ho, hm, hi⟩

/-- A system reset sends SRC at its first step, and nothing at the second (R104, R148). -/
theorem systemReset_sends {s : State} {m : Micro} {i : Instr}
    (hm : (expansion s.cfg .systemReset)[s.blk.step]? = some m) (hi : actInstr s m.act = some i) :
    s.blk.step = 0 ∧ m.act = .send .src := by
  match hstep : s.blk.step with
  | 0 =>
    rw [hstep] at hm
    cases hm
    exact ⟨rfl, rfl⟩
  | 1 =>
    rw [hstep] at hm
    cases hm
    cases hi
  | n + 2 =>
    rw [hstep] at hm
    cases hm

/-- Every step but a fixed SRC sends another transaction, or none. -/
theorem act_of_actInstr_src {s : State} {a : Act} (h : actInstr s a = some .src) : a = .send .src := by
  cases a with
  | send j =>
    cases h
    rfl
  | body =>
    simp only [actInstr] at h
    split at h <;> cases h
  | read | readBytes | poll | header | writeNpp | settle => cases h

/-- What the block is about to send is well-formed; it is SRC at the first step of a system reset, and at no step of
another operation (R80, R104). -/
theorem blockInstr_cases {s : State} {i : Instr} (h : blockInstr s = some i) :
    i.WellFormed ∧ ((s.blk.op = some .systemReset ∧ s.blk.step = 0 ∧ i = .src) ∨
      (s.blk.op ≠ some .systemReset ∧ i ≠ .src)) := by
  obtain ⟨o, m, ho, hm, hi⟩ := exists_micro_of_blockInstr h
  by_cases hreset : o = .systemReset
  · subst hreset
    obtain ⟨hstep, hact⟩ := systemReset_sends hm hi
    rw [hact] at hi
    cases hi
    exact ⟨trivial, .inl ⟨ho, hstep, rfl⟩⟩
  · have hord := expansion_ordinary hreset s.cfg m (List.mem_of_getElem? hm)
    have hwf : i.WellFormed := actInstr_wellFormed hi fun j hj => by
      rw [hj] at hord
      exact hord.1
    have hne : i ≠ .src := by
      rintro rfl
      rw [act_of_actInstr_src hi] at hord
      exact hord.2 rfl
    exact ⟨hwf, .inr ⟨by simpa [ho] using hreset, hne⟩⟩

/-- The block's own frame runs the transaction it was made from, and the block consumes the response (R18). -/
theorem blockState_of_blockInstr {s : State} {i : Instr} (h : blockInstr s = some i) :
    blockState s = afterFrame (execState i s) :=
  blockState_of_decode (by rw [blockFrame, h, Option.map_some]) (decode_encode (blockInstr_cases h).1)

theorem blockState_of_blockInstr_none {s : State} (h : blockInstr s = none) : blockState s = blockQuiet s := by
  simp only [blockState, blockFrame, h, Option.map_none]

/-! ### What a move leaves of the settling delay -/

@[simp] theorem settling_transact (tx : List Byte) (out : DevOut) (s : State) :
    (transact tx out s).settling = s.settling := by
  rcases transact_cases tx out s with ⟨_, -, h⟩ | ⟨-, -, h⟩ | ⟨-, h⟩ <;> rw [h] <;> rfl

@[simp] theorem transact_agenda (tx : List Byte) (out : DevOut) (s : State) :
    (transact tx out s).agenda = s.agenda := by
  rcases transact_cases tx out s with ⟨_, -, h⟩ | ⟨-, -, h⟩ | ⟨-, h⟩ <;> rw [h] <;> rfl

@[simp] theorem execState_agenda (i : Instr) (s : State) : (execState i s).agenda = s.agenda := by
  by_cases hi : i = .src
  · subst hi
    rcases execState_src s with h | h <;> rw [h] <;> exact transact_agenda _ _ s
  · rw [execState_of_ne_src hi, transact_agenda]

/-- Consuming a response can end a settling delay and never begins one (R148). -/
theorem settling_of_settling_consume {o : Op} {a : Act} {s : State} (h : (consume o a s).settling = true) :
    s.settling = true := by
  by_cases ha : a = .settle
  · subst ha
    simp [consume] at h
  · rwa [settling_consume ha] at h

theorem settling_of_settling_afterFrame {s : State} (h : (afterFrame s).settling = true) : s.settling = true := by
  unfold afterFrame at h
  split at h
  · exact settling_of_settling_consume h
  · exact h

/-- With no failure of the bus a transaction leaves the block at its step (R88). -/
theorem execState_op_step (i : Instr) {s : State} (hb : s.bus = none) :
    (execState i s).blk.op = s.blk.op ∧ (execState i s).blk.step = s.blk.step := by
  have hframe : ∀ tx out, (transact tx out s).blk.op = s.blk.op ∧ (transact tx out s).blk.step = s.blk.step := by
    intro tx out
    rcases transact_cases tx out s with ⟨_, hfail, -⟩ | ⟨-, -, h⟩ | ⟨-, h⟩
    · rw [hb] at hfail
      cases hfail
    · simp [h]
    · simp [h]
  by_cases hi : i = .src
  · subst hi
    rcases execState_src s with h | h <;> rw [h] <;> exact hframe _ _
  · rw [execState_of_ne_src hi]
    exact hframe _ _

/-- A transaction begins a settling delay only if it is SRC and the bus does not fail it (R104, log 19). -/
theorem settling_execState {i : Instr} {s : State} (h : i ≠ .src ∨ s.bus ≠ none) :
    (execState i s).settling = s.settling := by
  by_cases hi : i = .src
  · subst hi
    have hb := Option.isSome_iff_ne_none.2 (h.resolve_left fun hne => hne rfl)
    simp only [execState, beginSettling, hb, if_true, settling_transact]
  · rw [execState_of_ne_src hi, settling_transact]

/-- After its frame a system reset waits for the settling delay (R104, R148). -/
theorem afterFrame_systemReset {s : State} (ho : s.blk.op = some .systemReset) (hstep : s.blk.step = 0) :
    afterFrame s = goto .systemReset 1 true s := by
  simp [afterFrame, currentMicro, ho, hstep, expansion, consume, advance]

/-! ### Each move keeps the settling delay inside a system reset -/

section

variable {s t : State}

/-- With neither side settling, only the agenda counts. -/
theorem State.OwnFrames.of_not_settling (hagenda : ∀ e ∈ s.agenda, e.foreign = false) (h : s.settling = false) :
    s.OwnFrames :=
  ⟨hagenda, fun hs => by rw [h] at hs; cases hs⟩

/-- A move that begins no delay and leaves the block at its step. -/
theorem State.OwnFrames.of_same_place (h : s.OwnFrames) (hagenda : t.agenda = s.agenda)
    (hsettling : t.settling = s.settling) (hop : t.blk.op = s.blk.op) (hstep : t.blk.step = s.blk.step) :
    t.OwnFrames where
  no_foreign := hagenda ▸ h.no_foreign
  settling_inside := by
    rw [hsettling, hop, hstep]
    exact h.settling_inside

/-- While the block is anywhere but at the second step of a system reset, neither side settles. -/
theorem State.OwnFrames.not_settling (h : s.OwnFrames) (hplace : ¬(s.blk.op = some .systemReset ∧ s.blk.step = 1)) :
    s.settling = false :=
  Bool.eq_false_iff.2 fun hs => hplace (h.settling_inside hs)

/-- Where the block sends a frame, neither side settles: a system reset sends none while it waits. -/
theorem State.OwnFrames.not_settling_of_blockInstr (h : s.OwnFrames) {i : Instr} (hi : blockInstr s = some i) :
    s.settling = false := by
  refine h.not_settling fun ⟨ho, hstep⟩ => ?_
  rcases (blockInstr_cases hi).2 with ⟨-, hzero, -⟩ | ⟨hne, -⟩
  · omega
  · exact hne ho

theorem afterFrame_ownFrames (h : s.OwnFrames) {i : Instr} (hi : blockInstr s = some i) :
    (afterFrame (execState i s)).OwnFrames := by
  have hagenda : (afterFrame (execState i s)).agenda = s.agenda := by simp
  have hquiet := h.not_settling_of_blockInstr hi
  by_cases hsrc : i = .src ∧ s.bus = none
  · obtain ⟨rfl, hb⟩ := hsrc
    obtain ⟨ho, hstep⟩ : s.blk.op = some .systemReset ∧ s.blk.step = 0 := by
      rcases (blockInstr_cases hi).2 with ⟨ho, hstep, -⟩ | ⟨-, hne⟩
      · exact ⟨ho, hstep⟩
      · exact absurd rfl hne
    obtain ⟨ho', hstep'⟩ := execState_op_step .src hb
    refine ⟨hagenda ▸ h.no_foreign, fun _ => ?_⟩
    rw [afterFrame_systemReset (ho'.trans ho) (hstep'.trans hstep)]
    simp [ho', ho]
  · refine .of_not_settling (hagenda ▸ h.no_foreign) (Bool.eq_false_iff.2 fun hs => ?_)
    have hbefore := settling_of_settling_afterFrame hs
    rw [settling_execState (not_and_or.1 hsrc), hquiet] at hbefore
    cases hbefore

/-- A move without a frame ends the delay, or finds none: a body that does not fit is receivePacket's (R135, R148). -/
theorem blockQuiet_ownFrames (h : s.OwnFrames) : (blockQuiet s).OwnFrames := by
  refine .of_not_settling (by simpa using h.no_foreign) ?_
  by_cases hplace : s.blk.op = some .systemReset ∧ s.blk.step = 1
  · obtain ⟨ho, hstep⟩ := hplace
    simp [blockQuiet, currentMicro, ho, hstep, expansion, consume]
  · have hquiet := h.not_settling hplace
    unfold blockQuiet
    split
    · split
      · simp [consume]
      · exact hquiet
    · exact hquiet
    · split
      · rfl
      · exact hquiet

theorem blockState_ownFrames (h : s.OwnFrames) : (blockState s).OwnFrames := by
  cases hi : blockInstr s with
  | none =>
    rw [blockState_of_blockInstr_none hi]
    exact blockQuiet_ownFrames h
  | some i =>
    rw [blockState_of_blockInstr hi]
    exact afterFrame_ownFrames h hi

/-- A request during a system reset is refused, and outside one no delay runs (R162). -/
theorem request_ownFrames (h : s.OwnFrames) (o : Op) : (request o s).OwnFrames := by
  cases hop : s.blk.op with
  | some p =>
    have hrefused : request o s = recordFault .reentry s := by simp only [request, hop]
    rw [hrefused]
    exact h.of_same_place rfl rfl rfl rfl
  | none =>
    refine .of_not_settling (by simpa using h.no_foreign) ?_
    rw [settling_request]
    exact h.not_settling (by simp [hop])

theorem eventState_ownFrames (h : s.OwnFrames) {e : Event} (he : e.foreign = false) : (eventState e s).OwnFrames := by
  cases e with
  | block => exact blockState_ownFrames h
  | request o => exact request_ownFrames h o
  | frame | blockReset => cases he
  | callerStore | busFail | phy | clock | rx | powerOn => exact h.of_same_place rfl rfl rfl rfl

end

/-- Settles O35: the block's move and that of each event but the foreign ones keep the delay inside a system reset. -/
theorem stepKeepsOwnFrames : Obligations.StepKeepsOwnFrames := by
  intro s t h hstep
  rcases step_cases hstep with ⟨-, rfl⟩ | ⟨e, rest, hagenda, rfl⟩
  · exact blockState_ownFrames h
  · have hevents := h.no_foreign
    rw [hagenda, List.forall_mem_cons] at hevents
    have taken : State.OwnFrames { s with agenda := rest } := ⟨hevents.2, h.settling_inside⟩
    exact eventState_ownFrames taken hevents.1

end Sys2Proof.Machine
end

section
/-! ## Reads and writes of buffer memory by the transactions (R49, R60, R63) -/

namespace Sys2Proof.Machine

/-! ### What no write of a control register reaches -/

/-- A bit-field operation is a write of a control register or is refused, so it leaves buffer memory, the PHY registers
and CLKRDY alone (R101, R103). -/
theorem bitFieldOut_storage (a : Addr) (v : Byte) (tx : List Byte) (s : State) :
    (bitFieldOut a v tx s).dev.mem = s.dev.mem ∧ (bitFieldOut a v tx s).dev.pr = s.dev.pr ∧
      (bitFieldOut a v tx s).dev.clkrdy = s.dev.clkrdy := by
  unfold bitFieldOut
  split
  · exact ⟨rfl, rfl, rfl⟩
  · exact devWrite_fields _ _ _ _ _

/-- The device side of every transaction but WBM and SRC leaves buffer memory, the PHY registers and CLKRDY alone. -/
theorem outOf_storage {i : Instr} (hwbm : ∀ data, i ≠ .wbm data) (hsrc : i ≠ .src) (s : State) :
    (outOf i s).dev.mem = s.dev.mem ∧ (outOf i s).dev.pr = s.dev.pr ∧ (outOf i s).dev.clkrdy = s.dev.clkrdy := by
  cases i with
  | rcr a fill =>
    simp only [outOf, rcrOut]
    split <;> exact ⟨rfl, rfl, rfl⟩
  | rbm fill => exact ⟨rfl, rfl, rfl⟩
  | wcr a v => exact devWrite_fields _ _ _ _ _
  | wbm data => exact absurd rfl (hwbm data)
  | bfs a m | bfc a m => exact bitFieldOut_storage _ _ _ s
  | src => exact absurd rfl hsrc

/-- Settles O17: a frame that gets through leaves the device as its own side made it. -/
theorem otherTransactionsLeaveMemory : Obligations.OtherTransactionsLeaveMemory := by
  intro i s t hready hexec hwbm hsrc
  obtain rfl := exec_next hexec
  rw [execState_ready hsrc hready, endFrame_dev]
  obtain ⟨hmem, hpr, hclkrdy⟩ := outOf_storage hwbm hsrc s
  exact ⟨fun a => by rw [hmem], hpr, hclkrdy⟩

/-! ### The read pointer in the ring -/

/-- No bytes on, a pointer inside the ring is where it was. -/
theorem Ring.add_zero {g : Ring} {p : Nat} (h : g.contains p = true) : g.add p 0 = p := by
  simp only [Ring.contains, decide_eq_true_eq] at h
  have hmod : (p - g.first) % g.size = p - g.first := Nat.mod_eq_of_lt (by simp only [Ring.size]; omega)
  simp only [Ring.add, Nat.add_zero, hmod]
  omega

/-- One byte further round the ring is the next address, and from the last one the first (R63). -/
theorem Ring.add_succ {g : Ring} (h : g.first ≤ g.last) (p k : Nat) :
    g.add p (k + 1) = if g.add p k = g.last then g.first else g.add p k + 1 := by
  have hsize : g.size = g.last - g.first + 1 := rfl
  have hlt : (p - g.first + k) % g.size < g.size := Nat.mod_lt _ (by omega)
  have hhere : g.add p k = g.first + (p - g.first + k) % g.size := rfl
  have hnext : g.add p (k + 1) = g.first + ((p - g.first + k) % g.size + 1) % g.size := by
    rw [Nat.mod_add_mod]
    rfl
  rw [hhere, hnext]
  split
  next hend =>
    have hfull : (p - g.first + k) % g.size + 1 = g.size := by omega
    rw [hfull, Nat.mod_self, Nat.add_zero]
  next hend => rw [Nat.mod_eq_of_lt (by omega), Nat.add_assoc]

/-- A pointer up to ERXND advances as R63's ring does, with no carry out of its 13 bits. -/
theorem nextRead_toNat {r : DevRegs} {p : Ptr} (h : p.toNat ≤ r.erxnd.toNat) :
    (nextRead r p).toNat = if p.toNat = r.erxnd.toNat then r.erxst.toNat else p.toNat + 1 := by
  simp only [nextRead, BitVec.toNat_inj]
  split
  next => rfl
  next hne =>
    have := r.erxnd.isLt
    bv_omega

/-- With AUTOINC = 1, reading k bytes from inside the ring advances the pointer k places round it (R61, R63). -/
theorem advanceRead_iterate_toNat {r : DevRegs} (hauto : autoinc r = true) {p : Ptr}
    (hp : (ringOf r).contains p.toNat = true) (k : Nat) :
    ((advanceRead r)^[k] p).toNat = (ringOf r).add p.toNat k := by
  have hring : (ringOf r).first ≤ (ringOf r).last := by
    simp only [Ring.contains, decide_eq_true_eq] at hp
    omega
  induction k with
  | zero => exact (Ring.add_zero hp).symm
  | succ k ih =>
    have hle : ((advanceRead r)^[k] p).toNat ≤ r.erxnd.toNat := ih ▸ (Ring.add_le hring p.toNat k).2
    rw [Function.iterate_succ_apply', Ring.add_succ hring, ← ih, advanceRead, if_pos hauto, nextRead_toNat hle]
    rfl

/-- Settles O27: ERDPT ends advanced once for each byte read, and each advance is one place round the ring. -/
theorem rbmAdvancesRoundTheRing : Obligations.RbmAdvancesRoundTheRing := by
  intro fill s hready hauto hfirst hlast
  refine ⟨_, exec_eq _ s, ?_⟩
  have hinside : (ringOf s.dev.regs).contains s.dev.regs.erdpt.toNat = true := decide_eq_true ⟨hfirst, hlast⟩
  rw [execState_ready (by simp) hready]
  simp only [endFrame_dev, outOf, rbmOut, readBuffer_ptr]
  exact advanceRead_iterate_toNat hauto hinside _

end Sys2Proof.Machine
end

section
/-! ## The receive header (R53, R54, R130) -/

namespace Sys2Proof.Machine

/-- A little-endian field has its low byte first (R12, R53). -/
theorem le16_toNat (l h : Byte) : (le16 l h).toNat = h.toNat * 256 + l.toNat := by
  have hhigh : (h.setWidth 16 <<< 8 : Word).toNat = h.toNat <<< 8 := by
    rw [Nat.shiftLeft_eq]
    bv_omega
  have hlow : (l.setWidth 16 : Word).toNat = l.toNat := BitVec.toNat_setWidth_of_le (by decide)
  rw [le16, BitVec.toNat_or, hhigh, hlow, Nat.or_comm, ← Nat.shiftLeft_add_eq_or_of_lt l.isLt, Nat.shiftLeft_eq]

/-- Seven bytes are a first one and the six after it. -/
theorem exists_header_of_length {rx : List Byte} (h : rx.length = 7) :
    ∃ (b : Byte) (v : Vector Byte 6), rx = b :: v.toList := by
  obtain ⟨b, bs, rfl⟩ := List.exists_cons_of_length_eq_add_one h
  exact ⟨b, ⟨bs.toArray, by simpa using h⟩, by simp⟩

section

variable {s : State} (ho : s.blk.op = some .receivePacket) (hstep : s.blk.step = 5)

include ho hstep

/-- The sixth step of receivePacket's expansion is the one that reads the header (R126, R130). -/
theorem currentMicro_header : currentMicro s = some { act := .header, rxst := .header } := by
  rw [currentMicro, ho, hstep]
  rfl

theorem blockInstr_header : blockInstr s = some (.rbm (fillers Config.HDR_LEN)) := by
  rw [blockInstr, currentMicro_header ho hstep]
  rfl

/-- After the header's frame its data bytes go to the latches (R130). -/
theorem afterFrame_header :
    afterFrame s = advance .receivePacket .unit (latchHeader (responseData s) s) := by
  rw [afterFrame, ho, currentMicro_header ho hstep]
  rfl

end

/-- Settles O48: step 4's frame is an RBM of six bytes, and its response is latched field by field. -/
theorem headerIsLatched : Obligations.HeaderIsLatched := by
  intro s ⟨hidle, hready⟩ ho hstep
  have hplace := execState_op_step (.rbm (fillers Config.HDR_LEN)) hready.1
  have hlength := execState_rx_length (.rbm (fillers Config.HDR_LEN)) s
  have hlog := execState_log (.rbm (fillers Config.HDR_LEN)) s
  have hblock := blockState_of_blockInstr (blockInstr_header ho hstep)
  generalize execState (.rbm (fillers Config.HDR_LEN)) s = u at hplace hlength hlog hblock
  obtain ⟨b, h, hrx⟩ := exists_header_of_length hlength
  have hdata : responseData u = h.toList := by simp [responseData, hrx]
  refine ⟨_, step_eq s, b, h, ?_⟩
  rw [stepState_idle hidle, hblock, afterFrame_log, hlog, hrx,
    afterFrame_header (hplace.1.trans ho) (hplace.2.trans hstep), hdata]
  exact ⟨rfl, by simp [le16_toNat], by simp [le16_toNat], by simp [le16_toNat]⟩

end Sys2Proof.Machine
end

section
/-! ## The encoding of frames (R69 to R80) -/

namespace Sys2Proof.Machine

/-! ### What decodes -/

/-- What a payload decodes to is well-formed, and encodes to the operation's opcode byte and that payload (R73, R80). -/
theorem encode_of_decodePayload {op : Opcode} {a : Addr} {payload : List Byte} {i : Instr}
    (h : decodePayload op a payload = .ok i) : i.WellFormed ∧ encode i = opcodeByte op a :: payload := by
  unfold decodePayload at h
  split at h <;> cases h <;> exact ⟨by simp [Instr.WellFormed], rfl⟩

/-- A frame that decodes is the encoding of its well-formed transaction (R71, R80). -/
theorem encode_of_decode {tx : List Byte} {i : Instr} (h : decode tx = .ok i) : i.WellFormed ∧ encode i = tx := by
  cases tx with
  | nil => cases h
  | cons b payload =>
    simp only [decode] at h
    split at h
    next => cases h
    next op hop =>
      obtain ⟨hwf, henc⟩ := encode_of_decodePayload h
      exact ⟨hwf, by rw [henc, opcodeByte_of_opcodeOf hop]⟩

/-- Settles O1: the opcode byte gives the row and the argument back, and the payload has the length the row takes. -/
theorem decodeEncodeRoundTrip : Obligations.DecodeEncodeRoundTrip := fun _ h => decode_encode h

/-- Settles O2: the encoder inverts the decoder, and no two well-formed transactions have one encoding, since each is
what that encoding decodes to. -/
theorem decodedFrameIsItsEncoding : Obligations.DecodedFrameIsItsEncoding := by
  intro tx i h
  obtain ⟨hwf, henc⟩ := encode_of_decode h
  refine ⟨hwf, henc, fun j hj hjtx => ?_⟩
  have hdecode : decode tx = .ok j := hjtx ▸ decode_encode hj
  exact Decoded.ok.inj (hdecode.symm.trans h)

/-! ### What is rejected -/

/-- A payload is rejected for its length alone (R80). -/
theorem decodePayload_rejected {op : Opcode} {a : Addr} {payload : List Byte} {why : Reject}
    (h : decodePayload op a payload = .rejected why) : why = .frameLength := by
  unfold decodePayload at h
  split at h <;> cases h <;> rfl

/-- A frame is rejected for its opcode byte when no row of the opcode map has that byte (R78). -/
theorem decode_reservedOpcode_iff {b : Byte} {payload : List Byte} :
    decode (b :: payload) = .rejected .reservedOpcode ↔ opcodeOf b = none := by
  simp only [decode]
  split
  next h => simp [h]
  next op h =>
    have hpayload : decodePayload op (argOf b) payload ≠ .rejected .reservedOpcode :=
      fun hrej => nomatch decodePayload_rejected hrej
    simp [h, hpayload]

/-- The bytes of no row are the six ranges of R78. -/
theorem opcodeOf_eq_none_iff (b : Byte) : opcodeOf b = none ↔
    (0x20 ≤ b ∧ b ≤ 0x39) ∨ (0x3B ≤ b ∧ b ≤ 0x3F) ∨ (0x60 ≤ b ∧ b ≤ 0x79) ∨ (0x7B ≤ b ∧ b ≤ 0x7F) ∨
      (0xC0 ≤ b ∧ b ≤ 0xDF) ∨ (0xE0 ≤ b ∧ b ≤ 0xFE) := by
  revert b
  decide

/-- Settles O3: only the opcode byte matters, and each of the 256 is looked up in the opcode map. -/
theorem unassignedOpcodesAreRejected : Obligations.UnassignedOpcodesAreRejected :=
  ⟨fun b _ => decode_reservedOpcode_iff.trans (opcodeOf_eq_none_iff b), rfl⟩

/-- Settles O4: the decoder is run on each frame. -/
theorem specFramesDecode : Obligations.SpecFramesDecode := by
  unfold Obligations.SpecFramesDecode
  decide

/-! ### Register identifiers (R75, R76) -/

theorem idAddr_toNat (id : Byte) : (idAddr id).toNat = id.toNat % 32 := by
  revert id
  decide

theorem idBank_toNat (id : Byte) : (idBank id).toNat = id.toNat / 32 % 4 := by
  revert id
  decide

theorem idMac_iff (id : Byte) : idMac id = true ↔ 128 ≤ id.toNat := by
  revert id
  decide

@[simp] theorem identifier_idMac_idBank_idAddr (id : Byte) : identifier (idMac id) (idBank id) (idAddr id) = id := by
  revert id
  decide

@[simp] theorem idMac_identifier (m : Bool) (b : Bank) (a : Addr) : idMac (identifier m b a) = m := by
  revert m b a
  decide

@[simp] theorem idBank_identifier (m : Bool) (b : Bank) (a : Addr) : idBank (identifier m b a) = b := by
  revert m b a
  decide

@[simp] theorem idAddr_identifier (m : Bool) (b : Bank) (a : Addr) : idAddr (identifier m b a) = a := by
  revert m b a
  decide

/-- Settles O5: each field is its bits of the identifier, and splitting and joining invert each other. -/
theorem identifierDecodesToOneTriple : Obligations.IdentifierDecodesToOneTriple :=
  ⟨fun id => ⟨idAddr_toNat id, idBank_toNat id, idMac_iff id, identifier_idMac_idBank_idAddr id⟩,
    fun m b a => ⟨idMac_identifier m b a, idBank_identifier m b a, idAddr_identifier m b a⟩⟩

/-! ### The opcode byte the block sends (R73) -/

/-- A 5-bit address has no bits 7:5 to lose. -/
theorem setWidth_and_mask (a : Addr) : a.setWidth 8 &&& 0x1F = (a.setWidth 8 : Byte) := by
  revert a
  decide

/-- The address part of an identifier is its low five bits (R76). -/
theorem idAddr_setWidth (id : Byte) : (idAddr id).setWidth 8 = id &&& 0x1F := by
  revert id
  decide

/-- An opcode byte with an identifier's address holds the low five bits alone of the identifier (R73). -/
theorem opbyte_idAddr (constant id : Byte) : opbyte constant (idAddr id) = constant ||| (id &&& 0x1F) := by
  rw [opbyte, idAddr_setWidth]

/-- The frame of the step the block stands at is the encoding of what that step sends (R18, R69). -/
theorem blockFrame_of_step {s : State} {o : Op} {k : Nat} {m : Micro} {i : Instr} (ho : s.blk.op = some o)
    (hk : s.blk.step = k) (hm : (expansion s.cfg o)[k]? = some m) (hi : actInstr s m.act = some i) :
    blockFrame s = some (encode i) := by
  simp [blockFrame, blockInstr, currentMicro, ho, hk, hm, hi]

/-- Settles O15: the step's transaction is read off the operation's expansion, and its encoding begins with `opbyte`. -/
theorem opcodeDispatch : Obligations.OpcodeDispatch := by
  refine ⟨fun i => ?_, fun s a v dummy n bs => ?_⟩
  · cases i with
    | rcr | wcr | bfs | bfc => simp only [encode, opbyte, List.head?_cons, setWidth_and_mask]
    | rbm | wbm | src => rfl
  · simp only [← opbyte_idAddr]
    -- one argument for the nine operations: the expansion is a list whose step `k` computes
    and_intros <;> exact fun ho hk => ⟨_, blockFrame_of_step ho hk rfl rfl⟩

/-! ### A rejected frame on the bus (R78, R80, R161) -/

/-- A frame the bus gets through records F_SETTLE while a side settles and the device's own model faults, whatever its
effect (R105, R161, R170). -/
theorem mem_transact_faults {s : State} (hb : s.bus = none) {tx : List Byte} {out : DevOut} {f : ModelFault} :
    f ∈ (transact tx out s).blk.faults ↔
      f ∈ s.blk.faults ∨ (f = .settle ∧ s.settling = true) ∨ f ∈ out.faults := by
  rcases transact_cases tx out s with ⟨_, hfail, -⟩ | ⟨-, -, h⟩ | ⟨⟨-, hany⟩, h⟩
  · rw [hb] at hfail
    cases hfail
  · rw [h, endFrame_faults, mem_insertFaults, mem_beginFrame_faults, or_assoc]
    rfl
  · rw [h, endFrame_faults, mem_insertFaults]
    simp [(anyEffect_eq_false.1 hany).1]

/-- A frame the device gives no effect leaves a working device alone, is logged, and has its model fault recorded beside
the F_SETTLE of a settling delay (R78, R80, R161). -/
theorem transact_noEffect {s : State} (hb : s.bus = none) (f : ModelFault) (tx : List Byte) :
    (s.BusReady → (transact tx (noEffect f tx s) s).dev = s.dev) ∧
      f ∈ (transact tx (noEffect f tx s) s).blk.faults ∧
      (s.settling = true → .settle ∈ (transact tx (noEffect f tx s) s).blk.faults) ∧
      ∃ rx, rx.length = tx.length ∧ (transact tx (noEffect f tx s) s).blk.log = s.blk.log ++ [⟨tx, rx⟩] := by
  refine ⟨fun hready => ?_, ?_, fun hsettling => ?_, _, transact_rx_length (anyResponse_length tx s) s,
    transact_log tx _ s⟩
  · rw [transact_ready hready, endFrame_dev]
    rfl
  · exact (mem_transact_faults hb).2 (.inr (.inr (List.mem_singleton.2 rfl)))
  · exact (mem_transact_faults hb).2 (.inr (.inl ⟨rfl, hsettling⟩))

/-- A frame that is no transaction goes over the bus with no effect and the model fault of its rejection (R78, R80). -/
theorem frameState_of_rejected {tx : List Byte} {why : Reject} (h : decode tx = .rejected why) (hw : why ≠ .empty)
    (s : State) : ∃ f, frameState tx s = transact tx (noEffect f tx s) s ∧
      (why = .reservedOpcode → f = .reservedOpcode) ∧ (why = .frameLength → f = .frameLength) := by
  cases why with
  | empty => exact absurd rfl hw
  | reservedOpcode => exact ⟨.reservedOpcode, by simp only [frameState, h], fun _ => rfl, nofun⟩
  | frameLength => exact ⟨.frameLength, by simp only [frameState, h], nofun, fun _ => rfl⟩

/-- Settles O16: the rejected frame is one frame on the bus, whose device side changes nothing and has one model fault. -/
theorem rejectedFrameHasNoEffect : Obligations.RejectedFrameHasNoEffect := by
  intro s tx rest why hagenda hbus hdecode hwhy
  have hstep := step_eq s
  rw [stepState_event hagenda] at hstep
  obtain ⟨f, hframe, hopcode, hlength⟩ := frameState_of_rejected hdecode hwhy { s with agenda := rest }
  obtain ⟨hdev, hfault, hsettle, hlog⟩ := transact_noEffect (s := { s with agenda := rest }) hbus f tx
  rw [← hframe] at hdev hfault hsettle hlog
  exact ⟨_, hstep, hdev, fun hw => hopcode hw ▸ hfault, fun hw => hlength hw ▸ hfault,
    fun h => hsettle ((Bool.or_eq_true ..).mpr h), hlog⟩

end Sys2Proof.Machine
end

section
/-! ## What a transaction leaves of the block (R14, R88, R155, R156) -/

namespace Sys2Proof.Machine

/-! ### A frame on the bus -/

/-- Whatever becomes of a frame, it leaves the block registers that neither x[LOG], x[FAULTS] nor the raise of a failure
is about, the parameters and the agenda (R88, R155). -/
theorem transact_leaves (tx : List Byte) (out : DevOut) (s : State) :
    let t := transact tx out s
    (t.blk.step = s.blk.step ∧ t.blk.npp = s.blk.npp ∧ t.blk.flen = s.blk.flen ∧ t.blk.rsv = s.blk.rsv ∧
      t.blk.pollcnt = s.blk.pollcnt ∧ t.blk.buf = s.blk.buf ∧ t.blk.nppOut = s.blk.nppOut ∧ t.blk.low = s.blk.low) ∧
    t.blk.settling = s.blk.settling ∧ t.cfg = s.cfg ∧ t.agenda = s.agenda := by
  dsimp only
  rcases transact_cases tx out s with ⟨_, -, h⟩ | ⟨-, -, h⟩ | ⟨-, h⟩ <;> simp [h]

/-- Chip select is released at the end of a frame, also of a failed one (R14, R156). -/
theorem transact_cs (tx : List Byte) (out : DevOut) (s : State) : (transact tx out s).blk.cs = false := by
  rcases transact_cases tx out s with ⟨_, -, h⟩ | ⟨-, -, h⟩ | ⟨-, h⟩ <;> simp [h]

/-- A frame consumes the report of the bus (log 19). -/
theorem transact_bus (tx : List Byte) (out : DevOut) (s : State) : (transact tx out s).bus = none := by
  rcases transact_cases tx out s with ⟨_, -, h⟩ | ⟨hb, -, h⟩ | ⟨⟨hb, -⟩, h⟩
  · simp [h]
  · simp [h, hb]
  · simp [h, hb]

/-- A frame the bus fails raises BusFault (R156). -/
theorem transact_err {s : State} (hb : s.bus ≠ none) (tx : List Byte) (out : DevOut) :
    (transact tx out s).blk.err = .busFault := by
  obtain ⟨received, hreport⟩ := Option.ne_none_iff_exists'.1 hb
  simp [transact_failed hreport]

/-- A frame the bus gets through raises nothing (R88). -/
theorem transact_op_unchanged {s : State} (hb : s.bus = none) (tx : List Byte) (out : DevOut) :
    let t := transact tx out s
    t.blk.op = s.blk.op ∧ t.blk.physt = s.blk.physt ∧ t.blk.rxst = s.blk.rxst ∧ t.blk.err = s.blk.err ∧
      t.blk.ret = s.blk.ret := by
  dsimp only
  rcases transact_cases tx out s with ⟨_, hfail, -⟩ | ⟨-, -, h⟩ | ⟨-, h⟩
  · rw [hb] at hfail
    cases hfail
  · simp [h]
  · simp [h]

/-- A frame the bus fails records F_SETTLE while a side settles, and nothing else (R156, log 19). -/
theorem mem_transact_faults_failed {s : State} (hb : s.bus ≠ none) {tx : List Byte} {out : DevOut} {f : ModelFault} :
    f ∈ (transact tx out s).blk.faults ↔ f ∈ s.blk.faults ∨ (f = .settle ∧ s.settling = true) := by
  obtain ⟨received, hreport⟩ := Option.ne_none_iff_exists'.1 hb
  rw [transact_failed hreport, ← mem_beginFrame_faults]
  rfl

/-- A frame keeps the model faults recorded, and during a settling delay records F_SETTLE, also when the bus fails it
(R105, R161, log 23). -/
theorem mem_transact_faults_of {s : State} {f : ModelFault} (h : f ∈ s.blk.faults ∨ (f = .settle ∧ s.settling = true))
    (tx : List Byte) (out : DevOut) : f ∈ (transact tx out s).blk.faults := by
  by_cases hb : s.bus = none
  · rw [mem_transact_faults hb, ← or_assoc]
    exact .inl h
  · exact (mem_transact_faults_failed hb).2 h

/-- Beside F_SETTLE a frame records only the model faults of its device side (R161). -/
theorem of_mem_transact_faults {s : State} {tx : List Byte} {out : DevOut} {f : ModelFault}
    (h : f ∈ (transact tx out s).blk.faults) :
    f ∈ s.blk.faults ∨ (f = .settle ∧ s.settling = true) ∨ f ∈ out.faults := by
  by_cases hb : s.bus = none
  · exact (mem_transact_faults hb).1 h
  · exact ((mem_transact_faults_failed hb).1 h).imp_right .inl

/-! ### A transaction -/

/-- The model faults of a device side: the length of an RCR frame, a refused bit-field operation, a PHY overlap
(R80, R101, R103, R123). -/
theorem outOf_faults (i : Instr) (s : State) {f : ModelFault} (h : f ∈ (outOf i s).faults) :
    f = .frameLength ∨ f = .bitopMacmii ∨ f = .phyOverlap := by
  cases i with
  | rcr a fill =>
    simp only [outOf, rcrOut] at h
    split at h <;> simp_all [noEffect]
  | wcr a v => exact .inr (.inr (devWrite_faults _ _ _ _ _ f h))
  | bfs a m | bfc a m =>
    simp only [outOf, bitFieldOut] at h
    split at h
    · exact .inr (.inl (List.mem_singleton.1 h))
    · exact .inr (.inr (devWrite_faults _ _ _ _ _ f h))
  | rbm | wbm | src => exact nomatch h

/-- A transaction is its frame on the bus, but for the two settling states: SRC begins the delay unless the bus fails it
(R104, R105). -/
theorem execState_eq_transact (i : Instr) (s : State) : ∃ b d, execState i s =
      { transact (encode i) (outOf i s) s with
        blk := { (transact (encode i) (outOf i s) s).blk with settling := b }
        devSettling := d } ∧
    (i ≠ .src → b = s.blk.settling) ∧ (i = .src → s.bus = none → b = true) := by
  obtain ⟨-, hsettling, -⟩ := transact_leaves (encode i) (outOf i s) s
  by_cases hi : i = .src
  · subst hi
    by_cases hb : s.bus = none
    · exact ⟨true, true, by simp [execState, beginSettling, hb], fun h => absurd rfl h, fun _ _ => rfl⟩
    · have hfail := Option.isSome_iff_ne_none.2 hb
      exact ⟨_, _, if_pos hfail, fun h => absurd rfl h, fun _ h => absurd h hb⟩
  · exact ⟨_, _, execState_of_ne_src hi s, fun _ => hsettling, fun h => absurd h hi⟩

/-- Settles O13: each clause is one of the frame's, which SRC's settling states do not touch. -/
theorem transactionWritesOnlyLogAndSettling : Obligations.TransactionWritesOnlyLogAndSettling := by
  intro i s
  obtain ⟨hregs, -, hcfg, hagenda⟩ := transact_leaves (encode i) (outOf i s) s
  obtain ⟨b, d, h, hother, hsrc⟩ := execState_eq_transact i s
  refine ⟨_, exec_eq i s, ?_, ⟨execState_log i s, execState_rx_length i s, ?_⟩, ?_⟩ <;> rw [h]
  · exact fun hs => mem_transact_faults_of (.inr ⟨rfl, settling_eq_true.2 hs⟩) _ _
  · exact transact_cs _ _ s
  · refine ⟨fun hb => transact_err hb _ _, hregs, fun hb => transact_op_unchanged hb _ _, hother, hsrc,
      fun f hf => mem_transact_faults_of (.inl hf) _ _, fun f hf => ?_, hcfg, transact_bus _ _ s, hagenda⟩
    rw [← settling_eq_true]
    exact (of_mem_transact_faults hf).imp_right (Or.imp_right (outOf_faults i s))

/-! ### The resets (R104, R105, R171) -/

/-- DEV_RESET: the register image, PHYOP none, CLKRDY false, and no memory byte of a known value (R48). -/
theorem resetDevice_values (c : Config) (n : Nat) :
    (resetDevice c n).regs = c.devReset ∧ (resetDevice c n).phyop = .none ∧ (resetDevice c n).clkrdy = false ∧
      ∀ a, Memory.read (resetDevice c n).mem a = none :=
  ⟨rfl, rfl, rfl, fun _ => rfl⟩

/-- Settles O30: SRC and the power-on leave the device in DEV_RESET, and a block reset writes block registers alone. -/
theorem srcResetsTheDevice : Obligations.SrcResetsTheDevice := by
  refine ⟨fun s hfree => ⟨_, exec_eq .src s, ?_⟩, fun s rest hagenda => ⟨_, step_eq s, ?_⟩,
    fun s rest hagenda => ⟨_, step_eq s, ?_⟩⟩
  · obtain ⟨hregs, hphyop, hclkrdy, hmem⟩ := resetDevice_values s.cfg s.draws
    rw [execState_src_free hfree]
    exact ⟨hregs, hphyop, hclkrdy, hmem, rfl, rfl, insertFaults_nil _⟩
  · obtain ⟨hregs, hphyop, hclkrdy, hmem⟩ := resetDevice_values s.cfg s.draws
    rw [stepState_event hagenda]
    exact ⟨hregs, hphyop, hclkrdy, hmem, rfl, rfl⟩
  · rw [stepState_event hagenda]
    simp [eventState]

end Sys2Proof.Machine
end

section
/-! ## The streams of RBM and WBM (R61, R62, R95, R99) -/

namespace Sys2Proof.Machine

/-- A byte that has been written reads as itself, whatever the free value (R50). -/
theorem memRead_of_read {m : List Host.Cell} {p : Ptr} {b : Byte} (h : Memory.read m p.toNat = some b) (free : Byte) :
    memRead m p free = b := by
  simp [memRead, h]

/-- Settles O26: the response is a free byte and the stream from ERDPT on, and the model's advance of ERDPT is R61's. -/
theorem rbmReadsTheStream : Obligations.RbmReadsTheStream := by
  intro fill s hready
  refine ⟨_, exec_eq (.rbm fill) s, ?_⟩
  have hadvance : (fun p : Ptr => if s.dev.regs.econ2.getLsbD 7 then
      (if p = s.dev.regs.erxnd then s.dev.regs.erxst else p + 1) else p) = advanceRead s.dev.regs := rfl
  rw [execState_ready (by simp) hready]
  simp only [hadvance, endFrame_rx, endFrame_dev, endFrame_faults, outOf, rbmOut, readBuffer_ptr, insertFaults_nil]
  refine ⟨?_, fun k hk b hb => ?_, trivial, trivial⟩
  · rw [List.length_cons, readBuffer_length, Nat.add_comm]
  · rw [List.getElem?_cons_succ, readBuffer_get _ _ _ _ _ _ hk, memRead_of_read hb]

/-- With AUTOINC = 1 a write pointer advances modulo MEM_SIZE (R62). -/
theorem advanceWrite_iterate_toNat {r : DevRegs} (hauto : autoinc r = true) (p : Ptr) (k : Nat) :
    ((advanceWrite r)^[k] p).toNat = (p.toNat + k) % 8192 := by
  induction k with
  | zero => exact (Nat.mod_eq_of_lt p.isLt).symm
  | succ k ih =>
    rw [Function.iterate_succ_apply', advanceWrite, if_pos hauto, BitVec.toNat_add, ih]
    exact Nat.mod_add_mod _ _ _

/-- With AUTOINC = 0 a write pointer stays (R62). -/
theorem advanceWrite_of_not_autoinc {r : DevRegs} (hauto : autoinc r = false) : advanceWrite r = id := by
  funext p
  simp [advanceWrite, hauto]

/-- A stream no longer than memory does not come round to the byte it began with, so each byte stands where it went. -/
theorem writeBuffer_get {r : DevRegs} (hauto : autoinc r = true) (bs : List Byte) (m : List Host.Cell) (p : Ptr)
    (hlen : bs.length ≤ 8192) {k : Nat} (hk : k < bs.length) :
    Memory.read (writeBuffer r bs m p).mem ((p.toNat + k) % 8192) = bs[k]? := by
  induction bs generalizing m p k with
  | nil => simp at hk
  | cons b bs ih =>
    rw [List.length_cons] at hlen hk
    have hnext : (advanceWrite r p).toNat = (p.toNat + 1) % 8192 := advanceWrite_iterate_toNat hauto p 1
    rw [writeBuffer]
    cases k with
    | zero =>
      have hp : (p.toNat + 0) % 8192 = p.toNat := Nat.mod_eq_of_lt p.isLt
      rw [hp, writeBuffer_other, List.getElem?_cons_zero]
      · exact Memory.read_write_same _ _ _
      · intro j hj
        rw [advanceWrite_iterate_toNat hauto, hnext]
        have := p.isLt
        omega
    | succ k =>
      have hplace : (p.toNat + (k + 1)) % 8192 = ((advanceWrite r p).toNat + k) % 8192 := by omega
      rw [hplace, ih _ _ (by omega) (by omega), List.getElem?_cons_succ]

/-- With AUTOINC = 0 the last byte of a stream remains at the write pointer. -/
theorem writeBuffer_getLast {r : DevRegs} (hauto : autoinc r = false) (bs : List Byte) (m : List Host.Cell) (p : Ptr)
    {b : Byte} (hb : bs.getLast? = some b) : Memory.read (writeBuffer r bs m p).mem p.toNat = some b := by
  induction bs generalizing m with
  | nil => simp at hb
  | cons x bs ih =>
    rw [writeBuffer, advanceWrite_of_not_autoinc hauto, id]
    cases bs with
    | nil =>
      obtain rfl : x = b := by simpa using hb
      exact Memory.read_write_same _ _ _
    | cons y bs => exact ih _ (by rwa [List.getLast?_cons_cons] at hb)

/-- What WBM leaves of the device when its frame gets through (R99). -/
theorem execState_wbm_dev {s : State} (hready : s.BusReady) (data : List Byte) :
    (execState (.wbm data) s).dev = { s.dev with
      regs := { s.dev.regs with ewrpt := (advanceWrite s.dev.regs)^[data.length] s.dev.regs.ewrpt }
      mem := (writeBuffer s.dev.regs data s.dev.mem s.dev.regs.ewrpt).mem } := by
  rw [execState_ready (by simp) hready, endFrame_dev]
  simp only [outOf, wbmOut, writeBuffer_ptr]

theorem execState_wbm_faults {s : State} (hready : s.BusReady) (data : List Byte) :
    (execState (.wbm data) s).blk.faults = s.blk.faults := by
  rw [execState_ready (by simp) hready]
  rfl

/-- Settles O28: with AUTOINC = 1 the k-th byte goes to EWRPT + k modulo MEM_SIZE, and no byte to another place. -/
theorem wbmStoresTheStream : Obligations.WbmStoresTheStream := by
  intro data s hready hauto
  refine ⟨_, exec_eq (.wbm data) s, ?_⟩
  rw [execState_wbm_dev hready, execState_wbm_faults hready]
  refine ⟨advanceWrite_iterate_toNat hauto _ _, fun hlen k hk => writeBuffer_get hauto _ _ _ hlen hk,
    fun a ha => writeBuffer_other _ _ _ _ _ fun k hk => ?_, rfl, rfl⟩
  rw [advanceWrite_iterate_toNat hauto]
  exact ha k hk

/-- Settles O29: with AUTOINC = 0 every byte goes to EWRPT. -/
theorem wbmWithoutAutoincrement : Obligations.WbmWithoutAutoincrement := by
  intro data s hready hauto
  have hstay : ∀ k, (advanceWrite s.dev.regs)^[k] s.dev.regs.ewrpt = s.dev.regs.ewrpt := by
    simp [advanceWrite_of_not_autoinc hauto]
  refine ⟨_, exec_eq (.wbm data) s, ?_⟩
  rw [execState_wbm_dev hready, hstay]
  refine ⟨rfl, fun b hb => writeBuffer_getLast hauto _ _ _ hb, fun a ha => writeBuffer_other _ _ _ _ _ fun k hk => ?_⟩
  rw [hstay]
  rcases ha with ha | rfl
  · exact ha.symm
  · simp at hk

end Sys2Proof.Machine
end

section
/-! ## The control registers as the transactions read and write them (R36 to R46, R89 to R103) -/

namespace Sys2Proof.Machine

/-- A model fault that is recorded is in the set. -/
theorem mem_insertFaults_one (fs : List ModelFault) (f : ModelFault) : f ∈ insertFaults fs [f] :=
  mem_insertFaults.2 (.inr (List.mem_singleton.2 rfl))

/-! ### Which register stands at an address -/

/-- The common addresses are of every bank alike, so the register is the one at the selected bank's location
(R51, R89). -/
theorem regAt_locOf (b : Bank) (a : Addr) : regAt (locOf b a) = regAt ⟨b, a⟩ := by
  revert b a
  decide

theorem regAt_devLoc {r : DevRegs} {b : Bank} (hb : bsel r = b) (a : Addr) : regAt (devLoc r a) = regAt ⟨b, a⟩ :=
  hb ▸ regAt_locOf (bsel r) a

theorem regAt_devLoc_eie (r : DevRegs) : regAt (devLoc r 0x1B) = .eie := rfl

theorem regAt_devLoc_eir (r : DevRegs) : regAt (devLoc r 0x1C) = .eir := rfl

theorem regAt_devLoc_estat (r : DevRegs) : regAt (devLoc r 0x1D) = .estat := rfl

theorem regAt_devLoc_econ2 (r : DevRegs) : regAt (devLoc r 0x1E) = .econ2 := rfl

theorem regAt_eq_eir {b : Bank} {a : Addr} : regAt ⟨b, a⟩ = .eir → a = 0x1C := by
  revert b a
  decide

theorem regAt_eq_estat {b : Bank} {a : Addr} : regAt ⟨b, a⟩ = .estat → a = 0x1D := by
  revert b a
  decide

theorem regAt_eq_mistat {b : Bank} {a : Addr} : regAt ⟨b, a⟩ = .mistat → b = 3 ∧ a = 0x0A := by
  revert b a
  decide

theorem regAt_eq_erevid {b : Bank} {a : Addr} : regAt ⟨b, a⟩ = .erevid → b = 3 ∧ a = 0x12 := by
  revert b a
  decide

theorem regAt_eq_micmd {b : Bank} {a : Addr} : regAt ⟨b, a⟩ = .micmd → b = 2 ∧ a = 0x12 := by
  revert b a
  decide

theorem regAt_eq_miwrh {b : Bank} {a : Addr} : regAt ⟨b, a⟩ = .miwrh → b = 2 ∧ a = 0x17 := by
  revert b a
  decide

/-! ### What a register reads (R90) -/

/-- Bits that are 0 under the complement of a mask are all within the mask. -/
theorem and_mask_of_reserved {x m : Byte} (h : x &&& ~~~m = 0) : x &&& m = x := by
  have hsplit : (x &&& m) ||| (x &&& ~~~m) = x := by
    refine BitVec.eq_of_getLsbD_eq fun k hk => ?_
    simp only [BitVec.getLsbD_or, BitVec.getLsbD_and, BitVec.getLsbD_not, hk, decide_true, Bool.true_and]
    cases x.getLsbD k <;> cases m.getLsbD k <;> rfl
  rw [h, BitVec.ofNat_eq_ofNat, BitVec.or_zero] at hsplit
  exact hsplit

section

variable {c : Config} {d : Device} {a : Addr} {free : Byte}

/-- With absent bits 0, a register reads its stored byte unless R90 has it computed or leaves it open. -/
theorem devRead_eq_devStored (hr : reservedZero d.regs) (habsent : ∀ k, regAt (devLoc d.regs a) ≠ .absent k)
    (heir : regAt (devLoc d.regs a) ≠ .eir) (hestat : regAt (devLoc d.regs a) ≠ .estat)
    (hmistat : regAt (devLoc d.regs a) ≠ .mistat) (herevid : regAt (devLoc d.regs a) ≠ .erevid) :
    devRead c d a free = devStored d.regs a := by
  obtain ⟨hecon2, -, hmicmd⟩ := hr
  unfold devRead devStored
  cases hreg : regAt (devLoc d.regs a) with
  | econ2 => exact and_mask_of_reserved hecon2
  | micmd => exact and_mask_of_reserved hmicmd
  | eir => exact absurd hreg heir
  | estat => exact absurd hreg hestat
  | mistat => exact absurd hreg hmistat
  | erevid => exact absurd hreg herevid
  | absent k => exact absurd hreg (habsent k)
  | ptrLo | ptrHi | eie | econ1 | epktcnt | miregadr | miwrl | miwrh | mirdl | mirdh | plain => rfl

theorem devRead_ptrLo {p : PtrName} (h : regAt (devLoc d.regs a) = .ptrLo p) :
    devRead c d a free = ptrLow (getPtr d.regs p) := by
  simp only [devRead, h]

theorem devRead_ptrHi {p : PtrName} (h : regAt (devLoc d.regs a) = .ptrHi p) :
    devRead c d a free = ptrHigh (getPtr d.regs p) := by
  simp only [devRead, h]

theorem devRead_eir (c : Config) (d : Device) (free : Byte) : devRead c d 0x1C free = eirValue c d.regs := by
  simp only [devRead, regAt_devLoc_eir]

theorem devRead_estat (c : Config) (d : Device) (free : Byte) :
    devRead c d 0x1D free = estatValue d.clkrdy free := by
  simp only [devRead, regAt_devLoc_estat]

theorem devRead_econ2 (c : Config) (d : Device) (free : Byte) : devRead c d 0x1E free = d.regs.econ2 &&& econ2Bits := by
  simp only [devRead, regAt_devLoc_econ2]

theorem devRead_epktcnt (h : regAt (devLoc d.regs a) = .epktcnt) : devRead c d a free = d.regs.epktcnt := by
  simp only [devRead, h]

theorem devRead_mistat (h : regAt (devLoc d.regs a) = .mistat) : devRead c d a free = mistatValue d.phyop := by
  simp only [devRead, h]

end

/-- A bit of EIR as read: PKTIF in bit 6, the stored bits 5, 4, 3, 1 and 0, and no other (R42, R90). -/
theorem getLsbD_eirValue (c : Config) (r : DevRegs) (k : Nat) : (eirValue c r).getLsbD k =
    ((r.eir.getLsbD k && (0x3B : Byte).getLsbD k) || (pktif c r && pktifMask.getLsbD k)) := by
  unfold eirValue
  cases pktif c r <;> simp

theorem getLsbD_estatValue_zero (clkrdy : Bool) (free : Byte) : (estatValue clkrdy free).getLsbD 0 = clkrdy := by
  revert clkrdy free
  decide

theorem ptrLow_toNat (p : Ptr) : (ptrLow p).toNat = p.toNat % 256 := BitVec.toNat_setWidth ..

theorem ptrHigh_toNat (p : Ptr) : (ptrHigh p).toNat = p.toNat / 256 := by
  have := p.isLt
  simp only [ptrHigh, BitVec.toNat_setWidth, BitVec.toNat_ushiftRight, Nat.shiftRight_eq_div_pow]
  omega

/-- Settles O19: each register R90 lists is read by its own rule, and every other one reads its stored byte. -/
theorem deviceReadValues : Obligations.DeviceReadValues := by
  intro c d a free
  dsimp only
  have hreg : regAt (devLoc d.regs a) = regAt ⟨bsel d.regs, a⟩ := regAt_devLoc rfl a
  refine ⟨?eir, ?estat, ?mistat, ?epktcnt, ?erxwrptl, ?erxwrpth, ?econ2, ?stored⟩
  case eir =>
    rintro rfl
    simp only [devRead_eir, getLsbD_eirValue]
    refine ⟨by simp [pktifMask], by simp [pktifMask], fun hc => ?_, fun hc => ?_, ?_⟩
    · simp [pktifMask, pktif, hc]
    · simp [pktifMask, pktif, hc]
    · rintro k (rfl | rfl | rfl | rfl | rfl) <;> simp [pktifMask]
  case estat =>
    rintro rfl
    rw [devRead_estat, getLsbD_estatValue_zero]
  case mistat =>
    rintro hb rfl
    rw [devRead_mistat (by rw [hreg, hb]; rfl), mistatValue, ite_not]
    rfl
  case epktcnt =>
    rintro hb rfl
    exact devRead_epktcnt (regAt_devLoc hb _)
  case erxwrptl =>
    rintro hb rfl
    rw [devRead_ptrLo (p := .erxwrpt) (regAt_devLoc hb _), ptrLow_toNat]
    rfl
  case erxwrpth =>
    rintro hb rfl
    rw [devRead_ptrHi (p := .erxwrpt) (regAt_devLoc hb _), ptrHigh_toNat]
    rfl
  case econ2 =>
    rintro rfl
    rw [devRead_econ2, BitVec.getLsbD_and]
    exact Bool.and_false _
  case stored =>
    intro hr habsent heir hestat hcomputed
    refine devRead_eq_devStored hr habsent ?_ ?_ ?_ ?_ <;> rw [hreg] <;> intro h
    · exact heir (regAt_eq_eir h)
    · exact hestat (regAt_eq_estat h)
    · obtain ⟨hb, ha⟩ := regAt_eq_mistat h
      exact hcomputed ⟨hb, .inl ha⟩
    · obtain ⟨hb, ha⟩ := regAt_eq_erevid h
      exact hcomputed ⟨hb, .inr ha⟩

/-! ### Read control register (R93) -/

/-- The device side of an RCR frame of one filler byte: the register in `rx[1]`, unless its class is MAC/MII. -/
theorem rcrOut_one {fill : List Byte} (h : fill.length = 1) (a : Addr) (s : State) : ∃ b x y, rcrOut a fill s =
    ⟨s.dev, [], [b, if devMacmii s.cfg (bsel s.dev.regs) a then x else devRead s.cfg s.dev a y]⟩ := by
  simp only [rcrOut, h]
  exact ⟨_, _, _, rfl⟩

/-- With a dummy byte: the register in `rx[1]` or, of the class MAC/MII, in `rx[2]`. -/
theorem rcrOut_two {fill : List Byte} (h : fill.length = 2) (a : Addr) (s : State) : ∃ b x y z w, rcrOut a fill s =
    ⟨s.dev, [], [b, if devMacmii s.cfg (bsel s.dev.regs) a then x else devRead s.cfg s.dev a y,
      if devMacmii s.cfg (bsel s.dev.regs) a then devRead s.cfg s.dev a z else w]⟩ := by
  simp only [rcrOut, h]
  exact ⟨_, _, _, _, _, rfl⟩

/-- Any other number of filler bytes is a frame of a wrong length (R80). -/
theorem rcrOut_other {fill : List Byte} (h : ¬(fill.length = 1 ∨ fill.length = 2)) (a : Addr) (s : State) :
    rcrOut a fill s = noEffect .frameLength (encode (.rcr a fill)) s := by
  rw [not_or] at h
  unfold rcrOut
  dsimp only
  split
  · exact absurd ‹_› h.1
  · exact absurd ‹_› h.2
  · rfl

/-- Settles O18: a frame that gets through has the response and the model fault of its length. -/
theorem rcrReturnsTheRegister : Obligations.RcrReturnsTheRegister := by
  intro a fill s hready
  refine ⟨_, exec_eq (.rcr a fill) s, ?_⟩
  rw [execState_ready (by simp) hready]
  simp only [endFrame_dev, endFrame_faults, endFrame_rx, outOf]
  by_cases h : fill.length = 1 ∨ fill.length = 2
  · rcases h with h | h
    · obtain ⟨b, x, y, hout⟩ := rcrOut_one h a s
      rw [hout]
      exact ⟨rfl, fun _ => rfl, fun hn => absurd (.inl h) hn, fun hc _ => ⟨y, by simp [hc]⟩, fun _ h2 => by omega⟩
    · obtain ⟨b, x, y, z, w, hout⟩ := rcrOut_two h a s
      rw [hout]
      exact ⟨rfl, fun _ => rfl, fun hn => absurd (.inr h) hn, fun hc _ => ⟨y, by simp [hc]⟩,
        fun hc _ => ⟨z, by simp [hc]⟩⟩
  · rw [rcrOut_other h]
    exact ⟨rfl, fun hl => absurd hl h, fun _ => mem_insertFaults_one _ _,
      fun _ hl => absurd hl h, fun _ hl => absurd (.inr hl) h⟩

/-! ### What a write does to a register (R91) -/

/-- The registers a frame cannot write: ESTAT, EPKTCNT, ERXWRPT, MIRD, MISTAT and EREVID (R35, R41, R44, R46). -/
def Reg.readOnly : Reg → Bool
  | .estat | .epktcnt | .mirdl | .mirdh | .mistat | .erevid | .ptrLo .erxwrpt | .ptrHi .erxwrpt => true
  | _ => false

/-- Where the read-only registers stand. -/
theorem readOnly_regAt {b : Bank} {a : Addr} :
    a = 0x1D ∨ (b = 1 ∧ a = 0x19) ∨ (b = 0 ∧ (a = 0x0E ∨ a = 0x0F)) ∨ (b = 2 ∧ (a = 0x18 ∨ a = 0x19)) ∨
      (b = 3 ∧ (a = 0x0A ∨ a = 0x12)) → (regAt ⟨b, a⟩).readOnly = true := by
  revert b a
  decide

section

variable {c : Config} {n : Nat} {a : Addr} {v : Byte} {d : Device}

theorem devWrite_readOnly (h : (regAt (devLoc d.regs a)).readOnly = true) : devWrite c n a v d = ⟨d, []⟩ := by
  unfold devWrite
  dsimp only
  cases hreg : regAt (devLoc d.regs a) with
  | ptrLo p | ptrHi p =>
    rw [hreg] at h
    cases p with
    | erxwrpt => rfl
    | _ => cases h
  | estat | epktcnt | mirdl | mirdh | mistat | erevid => rfl
  | eie | eir | econ2 | econ1 | micmd | miregadr | miwrl | miwrh | plain | absent =>
    rw [hreg] at h
    cases h

theorem devWrite_ptrLo {p : PtrName} (h : regAt (devLoc d.regs a) = .ptrLo p) :
    devWrite c n a v d = ⟨{ d with regs := putPtr d.regs p (withPtrLow (getPtr d.regs p) v) }, []⟩ := by
  simp only [devWrite, h]

theorem devWrite_ptrHi {p : PtrName} (h : regAt (devLoc d.regs a) = .ptrHi p) :
    devWrite c n a v d = ⟨{ d with regs := putPtr d.regs p (withPtrHigh (getPtr d.regs p) v) }, []⟩ := by
  simp only [devWrite, h]

theorem devWrite_eie : devWrite c n 0x1B v d = ⟨{ d with regs := { d.regs with eie := v } }, []⟩ := by
  simp only [devWrite, regAt_devLoc_eie]

theorem devWrite_eir : devWrite c n 0x1C v d =
    ⟨{ d with regs := { d.regs with eir := eirStored c d.regs.eir v } }, []⟩ := by
  simp only [devWrite, regAt_devLoc_eir]

theorem devWrite_to_econ2 : devWrite c n 0x1E v d =
    ⟨{ d with regs := { d.regs with econ2 := v &&& econ2Bits, epktcnt := pktdec d.regs.epktcnt v } }, []⟩ := by
  simp only [devWrite, regAt_devLoc_econ2]

/-- A location of plain storage and one with no register store the byte (R46, log 17). -/
theorem devWrite_storage {k : Fin 128}
    (h : regAt (devLoc d.regs a) = .plain k ∨ regAt (devLoc d.regs a) = .absent k) :
    devWrite c n a v d = ⟨{ d with regs := { d.regs with plain := d.regs.plain.set k v } }, []⟩ := by
  rcases h with h | h <;> simp only [devWrite, h]

theorem devWrite_miregadr (h : regAt (devLoc d.regs a) = .miregadr) :
    devWrite c n a v d = ⟨{ d with regs := { d.regs with miregadr := (v &&& 0x1F).setWidth 5 } }, []⟩ := by
  simp only [devWrite, h]

theorem devWrite_miwrl (h : regAt (devLoc d.regs a) = .miwrl) :
    devWrite c n a v d = ⟨{ d with regs := { d.regs with miwrl := v } }, []⟩ := by
  simp only [devWrite, h]

theorem devWrite_micmd (h : regAt (devLoc d.regs a) = .micmd) : devWrite c n a v d =
    if v.getLsbD 0 then phyStart n (.rd d.regs.miregadr) { d with regs := { d.regs with micmd := v &&& micmdBits } }
    else ⟨{ d with regs := { d.regs with micmd := v &&& micmdBits } }, []⟩ := by
  simp only [devWrite, h]

theorem devWrite_miwrh (h : regAt (devLoc d.regs a) = .miwrh) : devWrite c n a v d =
    phyStart n (.wr d.regs.miregadr (le16 d.regs.miwrl v)) { d with regs := { d.regs with miwrh := v } } := by
  simp only [devWrite, h]

/-- Only a write that can start a PHY operation records a model fault (R123). -/
theorem devWrite_faults_nil (hmicmd : regAt (devLoc d.regs a) ≠ .micmd) (hmiwrh : regAt (devLoc d.regs a) ≠ .miwrh) :
    (devWrite c n a v d).faults = [] := by
  unfold devWrite
  dsimp only
  split
  case h_9 => exact absurd ‹_› hmicmd
  case h_12 => exact absurd ‹_› hmiwrh
  all_goals rfl

end

theorem phyStart_idle {d : Device} (h : d.phyop = .none) (n : Nat) (o : PhyOp) :
    phyStart n o d = ⟨{ d with phyop := o }, []⟩ := if_pos h

theorem phyStart_busy {d : Device} (h : d.phyop ≠ .none) (n : Nat) (o : PhyOp) :
    phyStart n o d = ⟨{ d with phyop := Config.freePhyOp n }, [.phyOverlap]⟩ := if_neg h

/-! ### Write control register (R97) -/

section

variable {s : State} (hready : s.BusReady) (a : Addr) (v : Byte)

include hready

theorem execState_wcr_dev : (execState (.wcr a v) s).dev = (devWrite s.cfg s.draws a v s.dev).dev := by
  rw [execState_ready (by simp) hready]
  rfl

theorem execState_wcr_faults : (execState (.wcr a v) s).blk.faults =
    insertFaults s.blk.faults (devWrite s.cfg s.draws a v s.dev).faults := by
  rw [execState_ready (by simp) hready]
  rfl

end

/-- Settles O21: the write of each register, by the register that stands at the address. -/
theorem wcrWritesTheRegister : Obligations.WcrWritesTheRegister := by
  intro a v s hready
  refine ⟨_, exec_eq (.wcr a v) s, ?_⟩
  have hreg : regAt (devLoc s.dev.regs a) = regAt ⟨bsel s.dev.regs, a⟩ := regAt_devLoc rfl a
  simp only [execState_wcr_dev hready, execState_wcr_faults hready]
  refine ⟨?eie, ?eirCount, ?eirSticky, ?econ2, ?econ1, fun hro => ?readOnly, fun k hk => ?plain, fun k hk => ?absent,
    fun hphy => ?faults⟩
  case eie => rintro rfl; rw [devWrite_eie]
  case eirCount => rintro rfl hc; rw [devWrite_eir, eirStored, hc]
  case eirSticky => rintro rfl hc; rw [devWrite_eir, eirStored, hc]
  case econ2 => rintro rfl; rw [devWrite_to_econ2]; rfl
  case econ1 => rintro rfl; rw [devWrite_econ1]
  case readOnly => rw [devWrite_readOnly (hreg ▸ readOnly_regAt hro)]
  case plain => rw [devWrite_storage (.inl hk)]
  case absent => rw [devWrite_storage (.inr hk)]
  case faults =>
    rw [devWrite_faults_nil, insertFaults_nil] <;> rw [hreg] <;> intro h
    · exact hphy 0x12 (by simp) (regAt_eq_micmd h)
    · exact hphy 0x17 (by simp) (regAt_eq_miwrh h)

/-! ### Pointer bytes (R31, R145) -/

/-- A write of the low byte keeps the high one. -/
theorem withPtrLow_toNat (p : Ptr) (v : Byte) : (withPtrLow p v).toNat = p.toNat / 256 * 256 + v.toNat := by
  have hp := p.isLt
  have hhigh : p &&& (0x1F00 : Ptr) = (p >>> 8 <<< 8 : Ptr) := by
    refine BitVec.eq_of_getLsbD_eq fun k hk => ?_
    interval_cases k <;> simp
  have hkept : (p &&& 0x1F00).toNat = (p.toNat / 256) <<< 8 := by
    rw [hhigh, BitVec.toNat_shiftLeft, BitVec.toNat_ushiftRight, Nat.shiftRight_eq_div_pow, Nat.shiftLeft_eq]
    omega
  have hlow : (v.setWidth 13 : Ptr).toNat = v.toNat := BitVec.toNat_setWidth_of_le (by decide)
  rw [withPtrLow, BitVec.toNat_or, hkept, hlow, ← Nat.shiftLeft_add_eq_or_of_lt v.isLt, Nat.shiftLeft_eq]

/-- A write of the high byte stores its bits 4:0 and keeps the low one. -/
theorem withPtrHigh_toNat (p : Ptr) (v : Byte) : (withPtrHigh p v).toNat = v.toNat % 32 * 256 + p.toNat % 256 := by
  have hstored : ((v &&& 0x1F).setWidth 13 <<< 8 : Ptr).toNat = (v.toNat % 32) <<< 8 := by
    revert v
    decide
  have hkept : (p &&& 0x00FF).toNat = p.toNat % 256 := Nat.and_two_pow_sub_one_eq_mod p.toNat 8
  rw [withPtrHigh, BitVec.toNat_or, hstored, hkept,
    ← Nat.shiftLeft_add_eq_or_of_lt (Nat.mod_lt _ (by decide : 0 < 2 ^ 8)), Nat.shiftLeft_eq]

section

variable {s : State} (hready : s.BusReady) {a : Addr} (v : Byte) {p : PtrName}

include hready

/-- WCR on a pointer's low byte. -/
theorem execState_wcr_ptrLo (h : regAt (devLoc s.dev.regs a) = .ptrLo p) :
    ∃ q : Ptr, q.toNat = (getPtr s.dev.regs p).toNat / 256 * 256 + v.toNat ∧
      (execState (.wcr a v) s).dev = { s.dev with regs := putPtr s.dev.regs p q } :=
  ⟨_, withPtrLow_toNat _ v, by rw [execState_wcr_dev hready, devWrite_ptrLo h]⟩

/-- WCR on a pointer's high byte. -/
theorem execState_wcr_ptrHi (h : regAt (devLoc s.dev.regs a) = .ptrHi p) :
    ∃ q : Ptr, q.toNat = v.toNat % 32 * 256 + (getPtr s.dev.regs p).toNat % 256 ∧
      (execState (.wcr a v) s).dev = { s.dev with regs := putPtr s.dev.regs p q } :=
  ⟨_, withPtrHigh_toNat _ v, by rw [execState_wcr_dev hready, devWrite_ptrHi h]⟩

end

/-- Settles O22: in bank 0 each address is a byte of one pointer, which `putPtr` stores. -/
theorem wcrWritesPointerBytes : Obligations.WcrWritesPointerBytes := by
  intro a v s hready hb
  have low : ∀ p, regAt ⟨0, a⟩ = .ptrLo p → _ := fun p h =>
    execState_wcr_ptrLo hready v ((regAt_devLoc hb a).trans h)
  have high : ∀ p, regAt ⟨0, a⟩ = .ptrHi p → _ := fun p h =>
    execState_wcr_ptrHi hready v ((regAt_devLoc hb a).trans h)
  refine ⟨_, exec_eq (.wcr a v) s, ?_⟩
  refine ⟨?_, ?_, ?_, ?_, ?_, ?_, ?_, ?_, ?_, ?_, ?_, ?_, ?_, ?_⟩ <;> rintro rfl
  · exact low .erdpt rfl
  · exact high .erdpt rfl
  · exact low .ewrpt rfl
  · exact high .ewrpt rfl
  · exact low .etxst rfl
  · exact high .etxst rfl
  · exact low .etxnd rfl
  · exact high .etxnd rfl
  · exact low .erxst rfl
  · exact high .erxst rfl
  · exact low .erxnd rfl
  · exact high .erxnd rfl
  · exact low .erxrdpt rfl
  · exact high .erxrdpt rfl

/-! ### The PHY engine (R44, R123) -/

/-- MIREGADR stores the low five bits. -/
theorem setWidth_five_and_mask (v : Byte) : (v &&& 0x1F).setWidth 5 = (v.setWidth 5 : BitVec 5) := by
  revert v
  decide

/-- Settles O23: MIREGADR and MIWRL store, MICMD and MIWRH start an operation or overlap the one in flight. -/
theorem wcrDrivesThePhyEngine : Obligations.WcrDrivesThePhyEngine := by
  intro a v s hready hb
  refine ⟨_, exec_eq (.wcr a v) s, ?_⟩
  have hreg := regAt_devLoc hb a
  simp only [execState_wcr_dev hready, execState_wcr_faults hready]
  refine ⟨?miregadr, ?miwrl, ?micmd, ?miwrh⟩ <;> rintro rfl
  case miregadr => rw [devWrite_miregadr hreg, setWidth_five_and_mask]
  case miwrl => rw [devWrite_miwrl hreg]
  case micmd =>
    refine ⟨?_, devWrite_mem .., devWrite_pr .., fun hv => ?_, fun hv hidle => ?_, fun hv hbusy => ?_⟩ <;>
      rw [devWrite_micmd hreg]
    · split
      · exact phyStart_regs ..
      · rfl
    · rw [if_neg (Bool.eq_false_iff.1 hv)]
      exact ⟨rfl, rfl⟩
    · rw [if_pos hv, phyStart_idle]
      exacts [⟨rfl, rfl⟩, hidle]
    · rw [if_pos hv, phyStart_busy]
      exacts [mem_insertFaults_one _ _, hbusy]
  case miwrh =>
    refine ⟨?_, devWrite_mem .., devWrite_pr .., fun hidle => ?_, fun hbusy => ?_⟩ <;> rw [devWrite_miwrh hreg]
    · exact phyStart_regs ..
    · rw [phyStart_idle]
      exacts [⟨⟨_, rfl, le16_toNat _ _⟩, rfl⟩, hidle]
    · rw [phyStart_busy]
      exacts [mem_insertFaults_one _ _, hbusy]

/-! ### Bit-field set and clear (R101, R103) -/

theorem devStored_econ1 (r : DevRegs) : devStored r 0x1F = r.econ1 := by
  simp only [devStored, devLoc_common (by decide : (0x1B : Addr) ≤ 0x1F), regAt_econ1]

/-- A bit-field operation that writes `v`: refused on the MAC/MII class, else what WCR of `v` does. -/
theorem exec_bitField {i : Instr} {a : Addr} {v : Byte} {s : State} (hready : s.BusReady) (hi : i ≠ .src)
    (hout : outOf i s = bitFieldOut a v (encode i) s) : ∃ t, exec i s = .next t ∧
    (devMacmii s.cfg (bsel s.dev.regs) a = true → t.dev = s.dev ∧ .bitopMacmii ∈ t.blk.faults) ∧
    (devMacmii s.cfg (bsel s.dev.regs) a = false →
      ∃ u, exec (.wcr a v) s = .next u ∧ t.dev = u.dev ∧ t.blk.faults = u.blk.faults) ∧
    (devMacmii s.cfg (bsel s.dev.regs) a = false → a = 0x1F →
      t.dev = { s.dev with regs := { s.dev.regs with econ1 := v } }) := by
  refine ⟨_, exec_eq i s, ?_⟩
  rw [execState_ready hi hready, endFrame_dev, endFrame_faults, hout]
  refine ⟨fun hmac => ?_, fun heth => ⟨_, exec_eq (.wcr a v) s, ?_⟩, ?_⟩
  · rw [bitFieldOut, if_pos hmac]
    exact ⟨rfl, mem_insertFaults_one _ _⟩
  · rw [bitFieldOut, if_neg (Bool.eq_false_iff.1 heth), execState_wcr_dev hready, execState_wcr_faults hready]
    exact ⟨rfl, rfl⟩
  · rintro heth rfl
    rw [bitFieldOut, if_neg (Bool.eq_false_iff.1 heth), writeOut, devWrite_econ1]

/-- Settles O24: BFS writes the stored byte OR the mask. -/
theorem bfsSetsBits : Obligations.BfsSetsBits := by
  intro a m s hready
  obtain ⟨t, ht, hmac, heth, hecon1⟩ := exec_bitField (i := .bfs a m) hready (by simp) rfl
  refine ⟨t, ht, hmac, heth, ?_⟩
  rintro hclass rfl
  rw [hecon1 hclass rfl, devStored_econ1]

/-- Settles O25: BFC writes the stored byte AND NOT the mask. -/
theorem bfcClearsBits : Obligations.BfcClearsBits := by
  intro a m s hready
  obtain ⟨t, ht, hmac, heth, hecon1⟩ := exec_bitField (i := .bfc a m) hready (by simp) rfl
  refine ⟨t, ht, hmac, heth, ?_⟩
  rintro hclass rfl
  rw [hecon1 hclass rfl, devStored_econ1]

end Sys2Proof.Machine
end

section
/-! ## The checks before the first frame (R106, R111, R119, R158) -/

namespace Sys2Proof.Machine

/-- A raise in an Idle block writes x[ERR] and the returned value alone (R155, R158). -/
theorem raise_of_idle {s : State} (hplaced : s.Placed) (hop : s.blk.op = none) (e : Err) :
    raise e s = { s with blk := { s.blk with err := e, ret := .none } } := by
  simp only [State.Placed, hop] at hplaced
  obtain ⟨hphyst, hrxst⟩ := hplaced
  simp only [raise, hop, hphyst, hrxst]

/-- A request with a failing check raises InvalidRegister in an Idle block (R158). -/
theorem request_of_failing {s : State} {o : Op} {k : Check} (hop : s.blk.op = none)
    (hfail : firstFailing s.cfg o = some k) : request o s = raise (.invalidRegister k.offending) s := by
  simp only [request, hop, hfail]

/-- Settles O33: the request raises, and a raise leaves an Idle block in its place. -/
theorem invalidRegisterBeforeAnyFrame : Obligations.InvalidRegisterBeforeAnyFrame := by
  intro s o rest k hagenda hplaced hop hfail
  have hrequest := request_of_failing (s := { s with agenda := rest }) hop hfail
  rw [raise_of_idle (s := { s with agenda := rest }) hplaced hop] at hrequest
  rw [step_eq, stepState_event hagenda]
  exact congrArg _ hrequest

/-! ### Which checks pass -/

@[simp] theorem passes_register (c : Config) (id : Byte) : (Check.register id).passes c = regValid c id := rfl

@[simp] theorem passes_phyAddr (c : Config) (p : Byte) : (Check.phyAddr p).passes c = decide (p ≤ 31) := rfl

/-- The low address of a pair is at most 0x1E unless its five bits are all set (R76, R111). -/
theorem idAddr_le_iff (id : Byte) : idAddr id ≤ 0x1E ↔ id &&& 0x1F ≠ 0x1F := by
  revert id
  decide

@[simp] theorem passes_pairLow (c : Config) (id : Byte) : (Check.pairLow id).passes c = decide (id &&& 0x1F ≠ 0x1F) :=
  decide_eq_decide.2 (idAddr_le_iff id)

/-- A pair's checks pass when the pair is valid (R111, R112). -/
theorem pairChecks_pass {c : Config} {id : Byte} : (∀ k ∈ pairChecks id, k.passes c = true) ↔ PairValid c id := by
  simp only [pairChecks, pairHigh, List.forall_mem_cons, List.not_mem_nil, false_imp_iff, implies_true, and_true,
    passes_pairLow, passes_register, decide_eq_true_eq]

/-- An operation passes when each of its checks does (R158). -/
theorem firstFailing_eq_none_iff {c : Config} {o : Op} :
    firstFailing c o = none ↔ ∀ k ∈ checks c o, k.passes c = true := by
  simp [firstFailing]

/-- The six registers of a MAC address are checked one by one (R152). -/
theorem regValid_vector {c : Config} (ids : Vector Byte 6) :
    (∀ id ∈ ids.toList, regValid c id = true) ↔ ∀ k : Fin 6, regValid c ids[k] = true := by
  simp only [Vector.mem_toList_iff, Vector.mem_iff_getElem]
  exact ⟨fun h k => h _ ⟨k, k.isLt, rfl⟩, fun h id ⟨k, hk, hid⟩ => hid ▸ h ⟨k, hk⟩⟩

/-! ### Which check fails first -/

/-- The first check of a list that fails is its head, or the first one after a head that passes. -/
theorem find?_failing_cons (c : Config) (k : Check) (ks : List Check) : ((k :: ks).find? fun k => !k.passes c) =
    if k.passes c = false then some k else ks.find? fun k => !k.passes c := by
  cases h : k.passes c <;> simp [h]

/-- The one check of an operation on a register is of its identifier (R106). -/
theorem find?_register (c : Config) (id : Byte) : ([Check.register id].find? fun k => !k.passes c) =
    if regValid c id = true then none else some (.register id) := by
  rw [find?_failing_cons, passes_register]
  cases regValid c id <;> rfl

/-- A PHY address above 31 fails before any identifier is looked at (R119). -/
theorem find?_phyAddr {c : Config} {p : Byte} (hp : 31 < p) (ks : List Check) :
    ((.phyAddr p :: ks).find? fun k => !k.passes c) = some (.phyAddr p) := by
  rw [find?_failing_cons, if_pos]
  simpa using hp

/-- A pair's low address is checked first, then its low identifier, then its high one (R111, R112). -/
theorem find?_pairChecks (c : Config) (id : Byte) : ((pairChecks id).find? fun k => !k.passes c) =
    if id &&& 0x1F = 0x1F then some (.pairLow id)
    else if regValid c id = false then some (.register id)
    else if regValid c (id + 1) = false then some (.register (id + 1)) else none := by
  simp only [pairChecks, pairHigh, find?_failing_cons, passes_pairLow, passes_register, decide_eq_false_iff_not,
    not_not, ne_eq, List.find?_nil]
  congr -- the decision procedure of the first condition

/-- Settles O34: the first failing check is found, or each check of the operation passes. -/
theorem whichRequestsAreInvalid : Obligations.WhichRequestsAreInvalid := by
  intro c id p v w
  refine ⟨find?_register c id, find?_register c id, ?pair, fun hp => ⟨find?_phyAddr hp _, find?_phyAddr hp _⟩,
    ?readPhy, ?writePhy, ?receivePacket, fun i => ?init, fun _ _ => rfl, rfl,
    fun _ _ _ => ⟨rfl, rfl, rfl, rfl, rfl, rfl⟩⟩
  case pair =>
    rintro o (rfl | rfl)
    · exact find?_pairChecks c id
    · exact find?_pairChecks c id
  all_goals
    simp only [firstFailing_eq_none_iff, checks, List.forall_mem_append, List.forall_mem_cons, List.not_mem_nil,
      false_imp_iff, implies_true, and_true, List.forall_mem_map, regValid_vector, pairChecks_pass, passes_register,
      passes_phyAddr, decide_eq_true_eq, and_assoc]

end Sys2Proof.Machine
end

section
/-! ## The bit-field frames of an operation (R101, R103, R107, R161) -/

namespace Sys2Proof.Machine

/-- The register a bit-field transaction is on; none for the others. -/
def bitFieldAddr : Instr → Option Addr
  | .bfs a _ => some a
  | .bfc a _ => some a
  | .rcr _ _ | .rbm _ | .wcr _ _ | .wbm _ | .src => none

/-- The only transaction refused with F_BITOP_MACMII is a bit-field one on a register of the MAC/MII class
(R101, R103). -/
theorem bitopMacmii_mem_outOf {i : Instr} {s : State} (h : .bitopMacmii ∈ (outOf i s).faults) :
    ∃ a, bitFieldAddr i = some a ∧ devMacmii s.cfg (bsel s.dev.regs) a = true := by
  cases i with
  | rcr a fill =>
    simp only [outOf, rcrOut] at h
    split at h <;> simp [noEffect] at h
  | wcr a v => cases devWrite_faults _ _ _ _ _ _ h
  | bfs a m | bfc a m =>
    refine ⟨a, rfl, ?_⟩
    simp only [outOf, bitFieldOut] at h
    split at h
    next hmac => exact hmac
    next => cases devWrite_faults _ _ _ _ _ _ h
  | rbm | wbm | src => cases h

/-- Every fixed transaction a list of steps sends is on the register `a`, if it is a bit-field one. -/
def BitFieldsOn (a : Addr) (ms : List Micro) : Prop :=
  ∀ m ∈ ms, ∀ i, m.act = .send i → ∀ b, bitFieldAddr i = some b → b = a

section

variable {a : Addr}

@[simp] theorem bitFieldsOn_append {ms ns : List Micro} :
    BitFieldsOn a (ms ++ ns) ↔ BitFieldsOn a ms ∧ BitFieldsOn a ns :=
  List.forall_mem_append

@[simp] theorem bitFieldsOn_inPhySt {p : PhySt} {ms : List Micro} :
    BitFieldsOn a (inPhySt p ms) ↔ BitFieldsOn a ms :=
  List.forall_mem_map

@[simp] theorem bitFieldsOn_inRxSt {r : RxSt} {ms : List Micro} : BitFieldsOn a (inRxSt r ms) ↔ BitFieldsOn a ms :=
  List.forall_mem_map

theorem bitFieldsOn_flatMap {α : Type} {f : α → List Micro} (h : ∀ x, BitFieldsOn a (f x)) (xs : List α) :
    BitFieldsOn a (xs.flatMap f) := by
  intro m hm
  obtain ⟨x, -, hx⟩ := List.mem_flatMap.1 hm
  exact h x m hx

end

section

variable (g : RegMap) (id : Byte)

@[simp] theorem bitFieldsOn_readReg (k : Sink) : BitFieldsOn (idAddr g.econ1) (readReg g id k) := by
  simp [BitFieldsOn, readReg, bankSwitch, bitFieldAddr]

@[simp] theorem bitFieldsOn_writeReg (v : Byte) : BitFieldsOn (idAddr g.econ1) (writeReg g id v) := by
  simp [BitFieldsOn, writeReg, bankSwitch, bitFieldAddr]

@[simp] theorem bitFieldsOn_pollFlag (mask : Byte) (cond : Until) :
    BitFieldsOn (idAddr g.econ1) (pollFlag g id mask cond) := by
  simp [BitFieldsOn, pollFlag, bitFieldAddr]

@[simp] theorem bitFieldsOn_writeNppPair : BitFieldsOn (idAddr g.econ1) (writeNppPair g id) := by
  simp [BitFieldsOn, writeNppPair, bankSwitch, bitFieldAddr]

end

/-- Every operation but a bare bit-field request has its bit-field frames on the bank-select register alone (R107). -/
theorem expansion_bitFieldsOn {o : Op} (ho : ∀ a m, o ≠ .bitFieldSet a m ∧ o ≠ .bitFieldClear a m) (c : Config) :
    BitFieldsOn (idAddr c.regmap.econ1) (expansion c o) := by
  cases o with
  | bitFieldSet a m => exact absurd rfl (ho a m).1
  | bitFieldClear a m => exact absurd rfl (ho a m).2
  | readRegister | writeRegister | readRegisterPair | writeRegisterPair | readPhy | writePhy | init =>
    simp [expansion, readPair, writePair, readPhySteps, writePhySteps, initSteps, bitFieldsOn_flatMap]
  | receivePacket =>
    simp only [expansion, receiveSteps, bitFieldsOn_append, bitFieldsOn_inRxSt, bitFieldsOn_pollFlag,
      bitFieldsOn_writeNppPair]
    simp [BitFieldsOn, bitFieldAddr]
  | readControlRegister | readBufferMemory | writeControlRegister | writeBufferMemory | systemReset | sendPacket =>
    simp [BitFieldsOn, expansion, sendSteps, bitFieldAddr]

/-- A bit-field transaction is a fixed one of its step. -/
theorem act_of_bitFieldAddr {s : State} {a : Act} {i : Instr} {b : Addr} (hi : actInstr s a = some i)
    (hb : bitFieldAddr i = some b) : a = .send i := by
  cases a with
  | send j => cases hi; rfl
  | body =>
    simp only [actInstr] at hi
    split at hi <;> cases hi
    cases hb
  | settle => cases hi
  | read | readBytes | poll | header | writeNpp => cases hi; cases hb

/-- A move without a frame records no refused bit-field operation: its one model fault is F_RX_OVERFLOW (R135). -/
theorem bitopMacmii_mem_blockQuiet {s : State} (h : .bitopMacmii ∈ (blockQuiet s).blk.faults) :
    .bitopMacmii ∈ s.blk.faults := by
  unfold blockQuiet at h
  split at h
  next =>
    split at h
    next => simpa using h
    next => simpa [rxOverflow, mem_insertFault] using h
  next => exact h
  next =>
    split at h
    next => exact h
    next => exact h

/-- While ECON1 is not of the MAC/MII class, a move of an operation but a bare bit-field request records no refused
bit-field operation. -/
theorem bitopMacmii_mem_blockState {s : State} {o : Op} (hop : s.blk.op = some o)
    (ho : ∀ a m, o ≠ .bitFieldSet a m ∧ o ≠ .bitFieldClear a m)
    (heth : devMacmii s.cfg (bsel s.dev.regs) (idAddr s.cfg.regmap.econ1) = false)
    (h : .bitopMacmii ∈ (blockState s).blk.faults) : .bitopMacmii ∈ s.blk.faults := by
  cases hi : blockInstr s with
  | none =>
    rw [blockState_of_blockInstr_none hi] at h
    exact bitopMacmii_mem_blockQuiet h
  | some i =>
    obtain ⟨b, d, hexec, -, -⟩ := execState_eq_transact i s
    rw [blockState_of_blockInstr hi, afterFrame_faults, hexec] at h
    rcases of_mem_transact_faults h with h | ⟨h, -⟩ | h
    · exact h
    · cases h
    · obtain ⟨a, ha, hmac⟩ := bitopMacmii_mem_outOf h
      obtain ⟨p, m, hp, hm, hact⟩ := exists_micro_of_blockInstr hi
      obtain rfl : o = p := Option.some.inj (hop.symm.trans hp)
      obtain rfl := expansion_bitFieldsOn ho s.cfg m (List.mem_of_getElem? hm) i (act_of_bitFieldAddr hact ha) a ha
      rw [heth] at hmac
      cases hmac

/-- Settles O37: both forms of the step are the block's move, whose bit-field frame is on the bank-select register. -/
theorem sequencesRaiseNoBitopFault : Obligations.SequencesRaiseNoBitopFault := by
  intro s t o hagenda hop _ ho heth hstep h
  obtain rfl := step_next hstep
  rcases hagenda with hagenda | ⟨rest, hagenda⟩
  · rw [stepState_idle hagenda] at h
    exact bitopMacmii_mem_blockState hop ho heth h
  · rw [stepState_event hagenda] at h
    exact bitopMacmii_mem_blockState (s := { s with agenda := rest }) hop ho heth h

end Sys2Proof.Machine
end

section
/-! ## Register accesses (R107 to R114) -/

namespace Sys2Proof.Machine

/-! ### A bank-switched register of the device -/

/-- The device once the bank-switch sequence has selected a bank (R107). -/
def selectBank (b : Bank) (d : Device) : Device :=
  { d with regs := { d.regs with econ1 := (d.regs.econ1 &&& ~~~bselMask) ||| b.setWidth 8 } }

/-- Clearing both bank-select bits and setting those of a bank selects it, whatever bank was selected (R107, R110). -/
@[simp] theorem bsel_selectBank (b : Bank) (d : Device) : bsel (selectBank b d).regs = b := by
  have hbits : ∀ (x : Byte) (b : Bank), ((x &&& ~~~bselMask) ||| b.setWidth 8).setWidth 2 = b := by decide
  exact hbits _ b

@[simp] theorem pwrsv_selectBank (b : Bank) (d : Device) : pwrsv (selectBank b d).regs = pwrsv d.regs := rfl

@[simp] theorem plain_selectBank (b : Bank) (d : Device) : (selectBank b d).regs.plain = d.regs.plain := rfl

@[simp] theorem getPtr_selectBank (b : Bank) (d : Device) (p : PtrName) :
    getPtr (selectBank b d).regs p = getPtr d.regs p := by
  cases p <;> rfl

/-- The register an identifier names (R36, R76). -/
def regOf (id : Byte) : Reg := regAt (locOf (idBank id) (idAddr id))

theorem regAt_selectBank (id : Byte) (d : Device) :
    regAt (devLoc (selectBank (idBank id) d).regs (idAddr id)) = regOf id := by
  rw [devLoc, bsel_selectBank, regOf]

/-- What an access reads from the register of an identifier: its bank is selected first (R108). -/
def readAt (c : Config) (free id : Byte) (d : Device) : Byte :=
  devRead c (selectBank (idBank id) d) (idAddr id) free

/-- What an access writes to the register of an identifier (R109). -/
def writeAt (c : Config) (draw : Nat) (id v : Byte) (d : Device) : Device :=
  (devWrite c draw (idAddr id) v (selectBank (idBank id) d)).dev

section

variable {c : Config} {free id v : Byte} {draw : Nat} {d : Device}

theorem readAt_plain {k : Fin 128} (h : regOf id = .plain k) : readAt c free id d = d.regs.plain[k] := by
  rw [← regAt_selectBank id d] at h
  simp only [readAt, devRead, h, plain_selectBank]

theorem writeAt_plain {k : Fin 128} (h : regOf id = .plain k) :
    (writeAt c draw id v d).regs.plain = d.regs.plain.set k v := by
  rw [writeAt, devWrite_storage (.inl ((regAt_selectBank id d).trans h)), plain_selectBank]

theorem readAt_ptrLo {p : PtrName} (h : regOf id = .ptrLo p) : readAt c free id d = ptrLow (getPtr d.regs p) := by
  rw [readAt, devRead_ptrLo ((regAt_selectBank id d).trans h), getPtr_selectBank]

theorem readAt_ptrHi {p : PtrName} (h : regOf id = .ptrHi p) : readAt c free id d = ptrHigh (getPtr d.regs p) := by
  rw [readAt, devRead_ptrHi ((regAt_selectBank id d).trans h), getPtr_selectBank]

/-- A pointer but ERXWRPT holds what a frame writes to it (R91). -/
theorem getPtr_putPtr {p : PtrName} (hp : p ≠ .erxwrpt) (r : DevRegs) (q : Ptr) : getPtr (putPtr r p q) p = q := by
  cases p with
  | erxwrpt => exact absurd rfl hp
  | erdpt | ewrpt | etxst | etxnd | erxst | erxnd | erxrdpt => rfl

theorem writeAt_ptrLo {p : PtrName} (hp : p ≠ .erxwrpt) (h : regOf id = .ptrLo p) :
    getPtr (writeAt c draw id v d).regs p = withPtrLow (getPtr d.regs p) v := by
  rw [writeAt, devWrite_ptrLo ((regAt_selectBank id d).trans h), getPtr_putPtr hp, getPtr_selectBank]

theorem writeAt_ptrHi {p : PtrName} (hp : p ≠ .erxwrpt) (h : regOf id = .ptrHi p) :
    getPtr (writeAt c draw id v d).regs p = withPtrHigh (getPtr d.regs p) v := by
  rw [writeAt, devWrite_ptrHi ((regAt_selectBank id d).trans h), getPtr_putPtr hp, getPtr_selectBank]

/-- Only a write of ECON2 can put the device into power save (R40, R170). -/
theorem pwrsv_writeAt (h : regOf id ≠ .econ2) : pwrsv (writeAt c draw id v d).regs = pwrsv d.regs := by
  rw [pwrsv, writeAt, devWrite_econ2 _ _ _ _ _ (regAt_selectBank id d ▸ h)]
  rfl

end

/-- Only a write of ECON1 changes it (R91). -/
theorem devWrite_keeps_econ1 {d : Device} {a : Addr} (h : regAt (devLoc d.regs a) ≠ .econ1) (c : Config) (n : Nat)
    (v : Byte) : (devWrite c n a v d).dev.regs.econ1 = d.regs.econ1 := by
  unfold devWrite
  dsimp only
  split
  case h_1 => rename_i p _; cases p <;> rfl
  case h_2 => rename_i p _; cases p <;> rfl
  case h_7 => exact absurd ‹_› h
  case h_9 => split <;> simp
  case h_12 => simp
  all_goals rfl

theorem regAt_eq_econ1 {b : Bank} {a : Addr} : regAt ⟨b, a⟩ = .econ1 → a = 0x1F := by
  revert b a
  decide

/-! ### One frame of an operation -/

/-- The block stands at a step of an operation, with nothing but its own moves to come (R18). -/
structure State.Stands (s : State) (o : Op) (k : Nat) : Prop where
  idle : s.agenda = []
  bus : s.bus = none
  settled : s.settling = false
  op : s.blk.op = some o
  step : s.blk.step = k

/-- The block stands at a step of an operation after the frames `txs`, with the parameters and the local of
readRegisterPair as they were. -/
structure SentFrom (s : State) (o : Op) (k : Nat) (txs : List (List Byte)) (t : State) : Prop where
  stands : t.Stands o k
  cfg : t.cfg = s.cfg
  low : t.blk.low = s.blk.low
  log : t.blk.log.map Frame.tx = s.blk.log.map Frame.tx ++ txs

section

variable {s t u : State} {o : Op} {k : Nat} {txs : List (List Byte)}

theorem SentFrom.after_frame (h : SentFrom s o k txs t) (tx : List Byte) (out : DevOut) :
    SentFrom s o k (txs ++ [tx]) (endFrame tx out t) where
  stands := ⟨h.stands.idle, h.stands.bus, h.stands.settled, h.stands.op, h.stands.step⟩
  cfg := h.cfg
  low := h.low
  log := by simp [h.log]

theorem SentFrom.after_goto (h : SentFrom s o k txs t) (n : Nat) (e : Bool) : SentFrom s o n txs (goto o n e t) where
  stands := ⟨by simpa using h.stands.idle, by simpa using h.stands.bus, by simpa using h.stands.settled,
    by simpa using h.stands.op, goto_step ..⟩
  cfg := by simpa using h.cfg
  low := by simpa using h.low
  log := by simpa using h.log

theorem SentFrom.trans {o' : Op} {k' : Nat} {txs' : List (List Byte)} (h : SentFrom s o k txs t)
    (h' : SentFrom t o' k' txs' u) : SentFrom s o' k' (txs ++ txs') u where
  stands := h'.stands
  cfg := h'.cfg.trans h.cfg
  low := h'.low.trans h.low
  log := by rw [h'.log, h.log, List.append_assoc]

theorem State.Stands.sentFrom (h : s.Stands o k) : SentFrom s o k [] s := ⟨h, rfl, rfl, by simp⟩

/-- The block's move at a step with a transaction: its frame gets through, and the response is consumed (R18). -/
theorem State.Stands.stepState_of_micro (h : s.Stands o k) (hawake : pwrsv s.dev.regs = false) {m : Micro} {i : Instr}
    (hm : (expansion s.cfg o)[k]? = some m) (hi : actInstr s m.act = some i) (hsrc : i ≠ .src) :
    stepState s = consume o m.act (endFrame (encode i) (outOf i s) s) := by
  have hmicro : ∀ t : State, t.cfg = s.cfg → t.Stands o k → currentMicro t = some m := by
    intro t hcfg ht
    rw [currentMicro, ht.op, ht.step, hcfg]
    exact hm
  have hinstr : blockInstr s = some i := by
    rw [blockInstr, hmicro s rfl h]
    exact hi
  have hsent := h.sentFrom.after_frame (encode i) (outOf i s)
  rw [stepState_idle h.idle, blockState_of_blockInstr hinstr, execState_ready hsrc ⟨h.bus, h.settled, hawake⟩,
    afterFrame, hsent.stands.op, hmicro _ hsent.cfg hsent.stands]

theorem State.Stands.advance_next (h : s.Stands o k) (hk : k + 1 < (expansion s.cfg o).length) (v : Value) :
    advance o v s = goto o (k + 1) true s := by
  rw [advance, h.step, if_pos hk]

theorem State.Stands.advance_last (h : s.Stands o k) (hk : (expansion s.cfg o).length = k + 1) (v : Value) :
    advance o v s = finish v s := by
  rw [advance, h.step, if_neg (by omega)]

/-- A fixed transaction that is not the operation's last: its frame is sent, and the next step follows. -/
theorem SentFrom.send (h : SentFrom s o k txs t) (hawake : pwrsv t.dev.regs = false) {m : Micro} {i : Instr}
    (hm : (expansion s.cfg o)[k]? = some m) (hact : m.act = .send i) (hsrc : i ≠ .src)
    (hk : k + 1 < (expansion s.cfg o).length) :
    SentFrom s o (k + 1) (txs ++ [encode i]) (stepState t) ∧ (stepState t).dev = (outOf i t).dev := by
  have hsent := h.after_frame (encode i) (outOf i t)
  rw [← h.cfg] at hm hk
  have hstep : stepState t = goto o (k + 1) true (endFrame (encode i) (outOf i t) t) := by
    rw [h.stands.stepState_of_micro hawake hm (by rw [hact]; rfl) hsrc, hact]
    exact hsent.stands.advance_next hk .unit
  rw [hstep, goto_dev, endFrame_dev]
  exact ⟨hsent.after_goto (k + 1) true, rfl⟩

end

/-! ### The bank-switch sequence (R107) -/

/-- The two frames of the bank-switch sequence (R107). -/
def switchFrames (id : Byte) : List (List Byte) := [[0xBF, 0x03], [0x9F, (idBank id).setWidth 8]]

theorem outOf_bfc_econ1_dev {s : State} (heth : devMacmii s.cfg (bsel s.dev.regs) 0x1F = false) (m : Byte) :
    (outOf (.bfc 0x1F m) s).dev = { s.dev with regs := { s.dev.regs with econ1 := s.dev.regs.econ1 &&& ~~~m } } := by
  simp only [outOf, bitFieldOut, heth, devStored_econ1, devWrite_econ1]
  rfl

theorem outOf_bfs_econ1_dev {s : State} (heth : devMacmii s.cfg (bsel s.dev.regs) 0x1F = false) (m : Byte) :
    (outOf (.bfs 0x1F m) s).dev = { s.dev with regs := { s.dev.regs with econ1 := s.dev.regs.econ1 ||| m } } := by
  simp only [outOf, bitFieldOut, heth, devStored_econ1, devWrite_econ1]
  rfl

/-- The steps of a list that follow a place in it. -/
theorem getElem?_of_drop {α : Type} {l l' : List α} {k : Nat} (h : l.drop k = l') (j : Nat) : l[k + j]? = l'[j]? := by
  rw [← h, List.getElem?_drop]

section

variable {s : State} {o : Op} {k : Nat} {id : Byte} {m : Micro} {rest : List Micro} (h : s.Stands o k)
  (hawake : pwrsv s.dev.regs = false) (hmap : BankSelectDefault s.cfg)

include h hawake hmap

/-- The bank-switch sequence before an access sends its two frames and selects the bank, and nothing else (R107). -/
theorem runState_bankSwitch (hsteps : (expansion s.cfg o).drop k = bankSwitch s.cfg.regmap id ++ m :: rest) :
    SentFrom s o (k + 2) (switchFrames id) (runState 2 s) ∧ (runState 2 s).dev = selectBank (idBank id) s.dev := by
  obtain ⟨hecon1, heth⟩ := hmap
  have haddr : idAddr s.cfg.regmap.econ1 = 0x1F := by rw [hecon1]; rfl
  have hlen := congrArg List.length hsteps
  simp only [List.length_drop, bankSwitch, List.length_append, List.length_cons, List.length_nil] at hlen
  obtain ⟨hsent, hdev⟩ := h.sentFrom.send (i := .bfc 0x1F bselMask) hawake (getElem?_of_drop hsteps 0) (haddr ▸ rfl)
    (by simp) (by omega)
  rw [outOf_bfc_econ1_dev (heth _)] at hdev
  obtain ⟨hsent', hdev'⟩ := hsent.send (i := .bfs 0x1F ((idBank id).setWidth 8)) (by rw [hdev]; exact hawake)
    (getElem?_of_drop hsteps 1) (haddr ▸ rfl) (by simp) (by omega)
  rw [outOf_bfs_econ1_dev (hsent.cfg.symm ▸ heth _), hdev] at hdev'
  exact ⟨hsent', hdev'⟩

/-- The step after the bank-switch sequence sends its own transaction, in the bank selected, and consumes the response. -/
theorem runState_access (hsteps : (expansion s.cfg o).drop k = bankSwitch s.cfg.regmap id ++ m :: rest) {i : Instr}
    (hi : ∀ t, actInstr t m.act = some i) (hsrc : i ≠ .src) :
    ∃ t, SentFrom s o (k + 2) (switchFrames id) t ∧ t.dev = selectBank (idBank id) s.dev ∧
      runState 3 s = consume o m.act (endFrame (encode i) (outOf i t) t) := by
  obtain ⟨hsent, hdev⟩ := runState_bankSwitch h hawake hmap hsteps
  refine ⟨_, hsent, hdev, ?_⟩
  have hm : (expansion (runState 2 s).cfg o)[k + 2]? = some m := by
    rw [hsent.cfg]
    exact getElem?_of_drop hsteps 2
  exact hsent.stands.stepState_of_micro (by rw [hdev]; exact hawake) hm (hi _) hsrc

end

/-! ### Reading and writing a register (R108, R109) -/

/-- The three frames of readRegister (R82, R108). -/
def readFrames (id : Byte) : List (List Byte) :=
  switchFrames id ++ [(idAddr id).setWidth 8 :: (if idMac id then [0x00, 0x00] else [0x00])]

/-- The three frames of writeRegister (R82, R109). -/
def writeFrames (id v : Byte) : List (List Byte) := switchFrames id ++ [[0x40 ||| (idAddr id).setWidth 8, v]]

theorem encode_rcr_rcrFill (id : Byte) : encode (.rcr (idAddr id) (rcrFill (idMac id))) =
    (idAddr id).setWidth 8 :: (if idMac id then [0x00, 0x00] else [0x00]) := by
  simp [encode, opbyte, rcrFill, Config.FILLER]

/-- With the dummy byte exactly for the MAC/MII class, the last byte of the response is the register's (R92, R93). -/
theorem rcrOut_value {s : State} {a : Addr} {mac : Bool} (hclass : devMacmii s.cfg (bsel s.dev.regs) a = mac) :
    ∃ bs free, rcrOut a (rcrFill mac) s = ⟨s.dev, [], bs ++ [devRead s.cfg s.dev a free]⟩ := by
  cases mac with
  | false =>
    obtain ⟨b, x, y, hout⟩ := rcrOut_one (fill := rcrFill false) rfl a s
    exact ⟨[b], y, by rw [hout, hclass]; rfl⟩
  | true =>
    obtain ⟨b, x, y, z, w, hout⟩ := rcrOut_two (fill := rcrFill true) rfl a s
    exact ⟨[b, x], z, by rw [hout, hclass]; rfl⟩

section

variable {s : State} {o : Op} {k : Nat} {id : Byte} {rest : List Micro} (h : s.Stands o k)
  (hawake : pwrsv s.dev.regs = false) (hmap : BankSelectDefault s.cfg)

include h hawake hmap

/-- `RDREG id` inside an operation: its three frames, the bank selected, and the register's byte for its sink (R108). -/
theorem runState_readReg {sink : Sink} (hsteps : (expansion s.cfg o).drop k = readReg s.cfg.regmap id sink ++ rest)
    (hclass : devMacmii s.cfg (idBank id) (idAddr id) = idMac id) :
    ∃ t free, SentFrom s o (k + 2) (readFrames id) t ∧ t.dev = selectBank (idBank id) s.dev ∧
      responseByte t = readAt s.cfg free id s.dev ∧
      runState 3 s = consume o (.read (idAddr id) (idMac id) sink) t := by
  obtain ⟨t, hsent, hdev, hrun⟩ := runState_access h hawake hmap hsteps (fun _ => rfl) (by simp)
  obtain ⟨bs, free, hout⟩ := rcrOut_value (s := t) (a := idAddr id) (mac := idMac id)
    (by rw [hsent.cfg, hdev, bsel_selectBank, hclass])
  have hsent' := hsent.after_frame (encode (.rcr (idAddr id) (rcrFill (idMac id))))
    (outOf (.rcr (idAddr id) (rcrFill (idMac id))) t)
  rw [encode_rcr_rcrFill] at hsent' hrun
  refine ⟨_, free, hsent', ?_, ?_, hrun⟩
  · rw [endFrame_dev, outOf, hout, hdev]
  · rw [responseByte, endFrame_rx, outOf, hout, hsent.cfg, hdev]
    simp [readAt]

/-- `WRREG id, v` inside an operation: its three frames, and the write in the register's bank (R109). -/
theorem runState_writeReg {v : Byte} (hsteps : (expansion s.cfg o).drop k = writeReg s.cfg.regmap id v ++ rest) :
    ∃ t draw, SentFrom s o (k + 2) (writeFrames id v) t ∧ t.dev = writeAt s.cfg draw id v s.dev ∧
      runState 3 s = advance o .unit t := by
  obtain ⟨t, hsent, hdev, hrun⟩ := runState_access h hawake hmap hsteps (fun _ => rfl) (by simp)
  refine ⟨_, t.draws, hsent.after_frame _ _, ?_, hrun⟩
  rw [endFrame_dev, outOf, hsent.cfg, hdev]
  rfl

end

/-! ### From the request to the return -/

/-- The block at the first step of an operation that has been requested (R158). -/
def started (o : Op) (s : State) : State := goto o 0 true { s with agenda := [], blk := { s.blk with op := some o } }

section

variable {s : State} {o : Op}

/-- A request whose checks pass starts the operation, and the block's moves follow (R158). -/
theorem run_request (hop : s.blk.op = none) (hvalid : firstFailing s.cfg o = none) (n : Nat) :
    run (n + 1) { s with agenda := [.request o] } = .next (runState n (started o s)) := by
  rw [run_eq, runState, stepState_event rfl, eventState, request]
  simp only [hop, hvalid, started]

theorem started_sentFrom (hquiet : s.Quiet) (o : Op) : SentFrom s o 0 [] (started o s) := by
  obtain ⟨-, hbus, hsettled, -⟩ := hquiet
  have hstands : State.Stands { s with agenda := [], blk := { s.blk with op := some o } } o s.blk.step :=
    ⟨rfl, hbus, hsettled, rfl, rfl⟩
  obtain ⟨hstands, hcfg, hlow, hlog⟩ := hstands.sentFrom.after_goto 0 true
  exact ⟨hstands, hcfg, hlow, hlog⟩

@[simp] theorem started_dev (o : Op) (s : State) : (started o s).dev = s.dev := goto_dev ..

end

/-- Settles O38: after the three frames of RDREG the operation returns the byte read. -/
theorem readRegisterFramesAndValue : Obligations.ReadRegisterFramesAndValue := by
  intro s id hquiet hop hmap hvalid hclass
  have ⟨_, _, _, hawake⟩ := hquiet
  have hstart := started_sentFrom hquiet (.readRegister id)
  obtain ⟨t, free, hsent, hdev, hvalue, hrun⟩ := runState_readReg hstart.stands hawake hmap
    (List.append_nil _).symm hclass
  rw [started_dev] at hdev hvalue
  have hfinish : runState 3 (started (.readRegister id) s) = finish (.byte (responseByte t)) t :=
    hrun.trans (hsent.stands.advance_last (by rw [hsent.cfg]; rfl) _)
  have hcheck : firstFailing s.cfg (.readRegister id) = none := by
    rw [firstFailing, checks, find?_register, if_pos hvalid]
  refine ⟨_, free, run_request hop hcheck 3, ?_⟩
  rw [hfinish]
  refine ⟨rfl, rfl, ?_, ?_, ?_, (hstart.trans hsent).log⟩
  · rw [finish_dev, hdev, bsel_selectBank]
  · rw [finish_ret, finish_cfg, finish_dev, hvalue, hsent.cfg, hstart.cfg, hdev, readAt]
  · rw [finish_dev, hdev]
    rfl

/-- Settles O39: after the three frames of WRREG the operation returns, and only a write of ECON1 moves the bank. -/
theorem writeRegisterFrames : Obligations.WriteRegisterFrames := by
  intro s id v hquiet hop hmap hvalid
  have ⟨_, _, _, hawake⟩ := hquiet
  have hstart := started_sentFrom hquiet (.writeRegister id v)
  obtain ⟨t, draw, hsent, hdev, hrun⟩ := runState_writeReg hstart.stands hawake hmap (List.append_nil _).symm
  rw [started_dev] at hdev
  have hfinish : runState 3 (started (.writeRegister id v) s) = finish .unit t :=
    hrun.trans (hsent.stands.advance_last (by rw [hsent.cfg]; rfl) _)
  have hcheck : firstFailing s.cfg (.writeRegister id v) = none := by
    rw [firstFailing, checks, find?_register, if_pos hvalid]
  refine ⟨_, run_request hop hcheck 3, ?_⟩
  rw [hfinish]
  refine ⟨rfl, rfl, rfl, fun haddr => ?_, fun haddr => ?_, (hstart.trans hsent).log⟩
  · have hreg : regOf id ≠ .econ1 := fun h => haddr (regAt_eq_econ1 ((regAt_locOf _ _).symm.trans h))
    rw [finish_dev, hdev, writeAt, bsel, devWrite_keeps_econ1 (regAt_selectBank id s.dev ▸ hreg)]
    exact bsel_selectBank (idBank id) s.dev
  · rw [finish_dev, hdev, writeAt, haddr, devWrite_econ1]

/-! ### Register pairs (R112 to R114) -/

/-- The low byte of a pair goes to the local of readRegisterPair (R112). -/
def latchLow (s : State) : State := { s with blk := { s.blk with low := responseByte s } }

theorem consume_pairLow (o : Op) (a : Addr) (dummy : Bool) (s : State) :
    consume o (.read a dummy .pairLow) s = advance o .unit (latchLow s) := rfl

theorem consume_pairHigh (o : Op) (a : Addr) (dummy : Bool) (s : State) :
    consume o (.read a dummy .pairHigh) s = advance o (.word (le16 s.blk.low (responseByte s))) s := rfl

@[simp] theorem latchLow_cfg (s : State) : (latchLow s).cfg = s.cfg := rfl

@[simp] theorem latchLow_dev (s : State) : (latchLow s).dev = s.dev := rfl

@[simp] theorem latchLow_low (s : State) : (latchLow s).blk.low = responseByte s := rfl

theorem State.Stands.latchLow {s : State} {o : Op} {k : Nat} (h : s.Stands o k) : (latchLow s).Stands o k :=
  ⟨h.idle, h.bus, h.settled, h.op, h.step⟩

section

variable {s : State} {id : Byte} (hquiet : s.Quiet) (hop : s.blk.op = none) (hmap : BankSelectDefault s.cfg)

include hquiet hop hmap

/-- writeRegisterPair writes the low byte, then the high one, and leaves the machine quiet unless it writes ECON2, which
could begin power save (R113, R170). -/
theorem run_writeRegisterPair (v : Word) (hvalid : firstFailing s.cfg (.writeRegisterPair id v) = none)
    (hlow : regOf id ≠ .econ2) (hhigh : regOf (id + 1) ≠ .econ2) :
    ∃ t m n, run 7 { s with agenda := [.request (.writeRegisterPair id v)] } = .next t ∧ t.Quiet ∧ t.blk.op = none ∧
      t.cfg = s.cfg ∧ t.dev = writeAt s.cfg n (id + 1) (hi8 v) (writeAt s.cfg m id (lo8 v) s.dev) := by
  have ⟨_, _, _, hawake⟩ := hquiet
  have hstart := started_sentFrom hquiet (.writeRegisterPair id v)
  obtain ⟨t, m, hsent, hdev, hrun⟩ := runState_writeReg (id := id) (v := lo8 v)
    (rest := writeReg s.cfg.regmap (pairHigh id) (hi8 v)) hstart.stands hawake hmap rfl
  have hmid := (hstart.trans hsent).after_goto 3 true
  rw [hsent.stands.advance_next (by rw [hsent.cfg]; exact (by decide : 3 < 6)) .unit] at hrun
  obtain ⟨u, n, hsent', hdev', hrun'⟩ := runState_writeReg (id := id + 1) (v := hi8 v) (rest := []) hmid.stands
    (by rw [goto_dev, hdev, pwrsv_writeAt hlow]; exact hawake) (by rw [hmid.cfg]; exact hmap) (by rw [hmid.cfg]; rfl)
  rw [hsent'.stands.advance_last (by rw [hsent'.cfg, hmid.cfg]; rfl) .unit] at hrun'
  have hdone : runState 6 (started (.writeRegisterPair id v) s) = finish .unit u := by
    rw [runState_add 3 3, hrun, hrun']
  have hpair : u.dev = writeAt s.cfg n (id + 1) (hi8 v) (writeAt s.cfg m id (lo8 v) s.dev) := by
    rw [hdev', goto_dev, hdev, hmid.cfg, hstart.cfg, started_dev]
  refine ⟨_, m, n, run_request hop hvalid 6, ?_⟩
  rw [hdone]
  refine ⟨⟨hsent'.stands.idle, hsent'.stands.bus, hsent'.stands.settled, ?_⟩, rfl, hsent'.cfg.trans hmid.cfg, hpair⟩
  rw [finish_dev, hpair, pwrsv_writeAt hhigh, pwrsv_writeAt hlow]
  exact hawake

/-- readRegisterPair reads the low byte, then the high one, and returns both (R112). -/
theorem run_readRegisterPair (hvalid : firstFailing s.cfg (.readRegisterPair id) = none)
    (hlow : devMacmii s.cfg (idBank id) (idAddr id) = idMac id)
    (hhigh : devMacmii s.cfg (idBank (id + 1)) (idAddr (id + 1)) = idMac (id + 1)) :
    ∃ t f g, run 7 { s with agenda := [.request (.readRegisterPair id)] } = .next t ∧ t.blk.err = .ok ∧
      t.blk.op = none ∧ t.blk.ret =
        .word (le16 (readAt s.cfg f id s.dev) (readAt s.cfg g (id + 1) (selectBank (idBank id) s.dev))) := by
  have ⟨_, _, _, hawake⟩ := hquiet
  have hstart := started_sentFrom hquiet (.readRegisterPair id)
  obtain ⟨t, f, hsent, hdev, hvalue, hrun⟩ := runState_readReg (id := id) (sink := .pairLow)
    (rest := readReg s.cfg.regmap (pairHigh id) .pairHigh) hstart.stands hawake hmap rfl hlow
  rw [started_dev] at hdev hvalue
  have hmid := hsent.stands.latchLow.sentFrom.after_goto 3 true
  have hcfg : (goto (.readRegisterPair id) 3 true (latchLow t)).cfg = s.cfg :=
    hmid.cfg.trans (hstart.trans hsent).cfg
  have hdev_mid : (goto (.readRegisterPair id) 3 true (latchLow t)).dev = selectBank (idBank id) s.dev := by
    rw [goto_dev, latchLow_dev, hdev]
  rw [consume_pairLow, hsent.stands.latchLow.advance_next (by rw [latchLow_cfg, hsent.cfg]; exact (by decide : 3 < 6))]
    at hrun
  obtain ⟨u, g, hsent', -, hvalue', hrun'⟩ := runState_readReg (id := id + 1) (sink := .pairHigh) (rest := [])
    hmid.stands (by rw [hdev_mid]; exact hawake) (by rw [hcfg]; exact hmap) (by rw [hcfg]; rfl)
    (by rw [hcfg]; exact hhigh)
  rw [consume_pairHigh, hsent'.stands.advance_last (by rw [hsent'.cfg, hcfg]; rfl)] at hrun'
  have hdone : runState 6 (started (.readRegisterPair id) s) = finish (.word (le16 u.blk.low (responseByte u))) u := by
    rw [runState_add 3 3, hrun, hrun']
  refine ⟨_, f, g, run_request hop hvalid 6, ?_⟩
  rw [hdone]
  refine ⟨rfl, rfl, ?_⟩
  rw [finish_ret, hsent'.low, hmid.low, latchLow_low, hvalue, hstart.cfg, hvalue', hcfg, hdev_mid]

end

theorem lo8_toNat (v : Word) : (lo8 v).toNat = v.toNat % 256 := BitVec.toNat_setWidth ..

theorem hi8_toNat (v : Word) : (hi8 v).toNat = v.toNat / 256 := by
  have := v.isLt
  simp only [hi8, BitVec.toNat_setWidth, BitVec.toNat_ushiftRight, Nat.shiftRight_eq_div_pow]
  omega

/-- A 16-bit value is the little-endian pair of its bytes (R53). -/
theorem le16_lo8_hi8 (v : Word) : le16 (lo8 v) (hi8 v) = v := by
  refine BitVec.eq_of_toNat_eq ?_
  rw [le16_toNat, lo8_toNat, hi8_toNat]
  omega

/-- A pointer written byte by byte holds the value's low 13 bits (R31). -/
theorem le16_ptr (p : Ptr) (v : Word) :
    le16 (ptrLow (withPtrHigh (withPtrLow p (lo8 v)) (hi8 v))) (ptrHigh (withPtrHigh (withPtrLow p (lo8 v)) (hi8 v))) =
      v &&& 0x1FFF := by
  have hmask : (v &&& 0x1FFF).toNat = v.toNat % 8192 := Nat.and_two_pow_sub_one_eq_mod v.toNat 13
  have hlo := lo8_toNat v
  have hhi := hi8_toNat v
  refine BitVec.eq_of_toNat_eq ?_
  rw [le16_toNat, hmask, ptrLow_toNat, ptrHigh_toNat, withPtrHigh_toNat, withPtrLow_toNat]
  omega

/-- The two identifiers of a pair name two registers (R111). -/
theorem regOf_ne_pairHigh {id : Byte} : id &&& 0x1F ≠ 0x1F → regOf id ≠ regOf (id + 1) := by
  revert id
  decide

/-- Settles O40: the two places are apart, so each holds its own byte of the value when it is read. -/
theorem plainPairRoundTrip : Obligations.PlainPairRoundTrip := by
  intro s id v k l hquiet hop hmap hvalid hk hl hlow hhigh
  have hk : regOf id = .plain k := hk
  have hl : regOf (id + 1) = .plain l := hl
  obtain ⟨haddr, -, -⟩ := pairChecks_pass.1 (firstFailing_eq_none_iff.1 hvalid)
  have hne : l ≠ k := by
    rintro rfl
    exact regOf_ne_pairHigh haddr (hk.trans hl.symm)
  obtain ⟨t, m, n, hwrite, hquiet', hop', hcfg, hdev⟩ := run_writeRegisterPair hquiet hop hmap v hvalid
    (by rw [hk]; nofun) (by rw [hl]; nofun)
  rw [← hcfg] at hmap hvalid hlow hhigh
  obtain ⟨u, f, g, hread, herr, hdone, hret⟩ := run_readRegisterPair hquiet' hop' hmap hvalid hlow hhigh
  refine ⟨t, u, hwrite, hread, ?_, herr, hdone⟩
  rw [hret, readAt_plain hk, readAt_plain hl, plain_selectBank, hdev, writeAt_plain hl, writeAt_plain hk]
  simp [Fin.val_ne_iff.2 hne, le16_lo8_hi8]

/-- Where the writable pointer pairs stand (R31, R36). -/
theorem regOf_pointerPair {id : Byte} (h : id ∈ [(0x00 : Byte), 0x02, 0x04, 0x06, 0x08, 0x0A, 0x0C]) :
    ∃ p, p ≠ .erxwrpt ∧ regOf id = .ptrLo p ∧ regOf (id + 1) = .ptrHi p := by
  simp only [List.mem_cons, List.not_mem_nil, or_false] at h
  rcases h with rfl | rfl | rfl | rfl | rfl | rfl | rfl
  · exact ⟨.erdpt, nofun, rfl, rfl⟩
  · exact ⟨.ewrpt, nofun, rfl, rfl⟩
  · exact ⟨.etxst, nofun, rfl, rfl⟩
  · exact ⟨.etxnd, nofun, rfl, rfl⟩
  · exact ⟨.erxst, nofun, rfl, rfl⟩
  · exact ⟨.erxnd, nofun, rfl, rfl⟩
  · exact ⟨.erxrdpt, nofun, rfl, rfl⟩

/-- The pointer pairs are in bank 0 and of the ETH class (R36, R37). -/
theorem pointerPair_bank_class : ∀ id ∈ [(0x00 : Byte), 0x02, 0x04, 0x06, 0x08, 0x0A, 0x0C],
    (idBank id = 0 ∧ idMac id = false) ∧ idBank (id + 1) = 0 ∧ idMac (id + 1) = false := by decide

/-- Settles O41: the second write keeps the pointer's low byte and masks the high one, and the reads return both. -/
theorem pointerPairRoundTrip : Obligations.PointerPairRoundTrip := by
  intro s id v hquiet hop hmap hid hvalid hlow hhigh
  obtain ⟨p, hp, hlo, hhi⟩ := regOf_pointerPair hid
  obtain ⟨⟨hbank, hmac⟩, hbank', hmac'⟩ := pointerPair_bank_class id hid
  obtain ⟨t, m, n, hwrite, hquiet', hop', hcfg, hdev⟩ := run_writeRegisterPair hquiet hop hmap v hvalid
    (by rw [hlo]; nofun) (by rw [hhi]; nofun)
  rw [← hcfg] at hmap hvalid hlow hhigh
  obtain ⟨u, f, g, hread, herr, hdone, hret⟩ := run_readRegisterPair hquiet' hop' hmap hvalid
    (by rw [hbank, hlow, hmac]) (by rw [hbank', hhigh, hmac'])
  refine ⟨t, u, hwrite, hread, ?_, herr, hdone⟩
  rw [hret, readAt_ptrLo hlo, readAt_ptrHi hhi, getPtr_selectBank, hdev, writeAt_ptrHi hp hhi, writeAt_ptrLo hp hlo,
    le16_ptr]

end Sys2Proof.Machine
end

section
/-! ## The moves of the block under a list of moves to come (R64, log 1) -/

namespace Sys2Proof.Machine

/-- The same machine with other moves to come. -/
def withMoves (es : List Event) (s : State) : State := { s with agenda := es }

theorem withMoves_of_agenda {es : List Event} {s : State} (h : s.agenda = es) : withMoves es s = s := by
  subst h
  rfl

section

variable (es : List Event) (s : State)

theorem transact_withMoves (tx : List Byte) (out : DevOut) :
    transact tx out (withMoves es s) = withMoves es (transact tx out s) := by
  obtain ⟨cfg, blk, dev, devSettling, bus, agenda, draws⟩ := s
  cases bus with
  | some received => rfl
  | none =>
    simp only [transact]
    rw [apply_ite (withMoves es)]
    rfl

theorem execState_withMoves (i : Instr) : execState i (withMoves es s) = withMoves es (execState i s) := by
  cases i with
  | src =>
    simp only [execState, beginSettling]
    rw [apply_ite (withMoves es), show outOf .src (withMoves es s) = outOf .src s from rfl, transact_withMoves]
    rfl
  | rcr | rbm | wcr | wbm | bfs | bfc => exact transact_withMoves es s _ _

theorem frameState_withMoves (tx : List Byte) : frameState tx (withMoves es s) = withMoves es (frameState tx s) := by
  unfold frameState
  split
  · exact execState_withMoves es s _
  · rfl
  · exact transact_withMoves es s _ _
  · exact transact_withMoves es s _ _

theorem goto_withMoves (o : Op) (n : Nat) (e : Bool) : goto o n e (withMoves es s) = withMoves es (goto o n e s) := by
  simp only [goto, withMoves]
  split <;> rfl

theorem advance_withMoves (o : Op) (v : Value) : advance o v (withMoves es s) = withMoves es (advance o v s) := by
  simp only [advance]
  rw [apply_ite (withMoves es), goto_withMoves]
  rfl

theorem pollAgain_withMoves (o : Op) (id : Byte) : pollAgain o id (withMoves es s) = withMoves es (pollAgain o id s) := by
  simp only [pollAgain]
  rw [apply_ite (withMoves es), ← goto_withMoves]
  rfl

theorem consume_withMoves (o : Op) (a : Act) : consume o a (withMoves es s) = withMoves es (consume o a s) := by
  cases a with
  | poll id mask cond =>
    simp only [consume]
    rw [apply_ite (withMoves es), advance_withMoves, pollAgain_withMoves]
    rfl
  | read a dummy sink =>
    cases sink with
    | result | pairHigh => exact advance_withMoves es s o _
    | pairLow => exact advance_withMoves es (latchLow s) o _
  | header => exact advance_withMoves es (latchHeader (responseData s) s) o _
  | body => exact advance_withMoves es { s with blk := { s.blk with buf := overlay s.blk.buf (responseData s) } } o _
  | settle => exact advance_withMoves es (settle s) o _
  | send | readBytes | writeNpp => exact advance_withMoves es s o _

theorem afterFrame_withMoves : afterFrame (withMoves es s) = withMoves es (afterFrame s) := by
  unfold afterFrame
  rw [show currentMicro (withMoves es s) = currentMicro s from rfl, show (withMoves es s).blk = s.blk from rfl]
  split
  · exact consume_withMoves es s _ _
  · rfl

theorem blockQuiet_withMoves : blockQuiet (withMoves es s) = withMoves es (blockQuiet s) := by
  unfold blockQuiet
  rw [show currentMicro (withMoves es s) = currentMicro s from rfl, show (withMoves es s).blk = s.blk from rfl]
  split
  · split
    · exact consume_withMoves es s _ _
    · rfl
  · rfl
  · rw [apply_ite (withMoves es)]
    rfl

/-- The block's move neither looks at the moves to come nor changes them (R64). -/
theorem blockState_withMoves : blockState (withMoves es s) = withMoves es (blockState s) := by
  unfold blockState
  rw [show blockFrame (withMoves es s) = blockFrame s from rfl]
  split
  · rw [frameState_withMoves, afterFrame_withMoves]
  · exact blockQuiet_withMoves es s

end

/-- The block's moves on the agenda are those of an empty agenda, with the rest left to come (log 1). -/
theorem runState_blocks {s : State} (h : s.agenda = []) (n : Nat) (es : List Event) :
    runState n (withMoves (List.replicate n .block ++ es) s) = withMoves es (runState n s) := by
  induction n generalizing s with
  | zero => rfl
  | succ n ih =>
    have hfirst : stepState (withMoves (List.replicate (n + 1) .block ++ es) s) =
        withMoves (List.replicate n .block ++ es) (blockState s) := by
      rw [List.replicate_succ, List.cons_append, stepState_event rfl]
      exact blockState_withMoves _ s
    have hidle : (blockState s).agenda = [] := by
      rw [← withMoves_of_agenda h, blockState_withMoves]
      rfl
    rw [runState, runState, hfirst, ih hidle, stepState_idle h]

/-- After the block's moves on the agenda the PHY engine steps (R64, R123). -/
theorem runState_blocks_phy {s : State} (h : s.agenda = []) {n : Nat} (hdone : (runState n s).agenda = []) :
    runState (n + 1) (withMoves (List.replicate n .block ++ [.phy]) s) = onDevice phyComplete (runState n s) := by
  rw [runState_add n 1, runState_blocks h, runState, runState, stepState_event rfl]
  exact congrArg (onDevice phyComplete) (withMoves_of_agenda hdone)

/-! ### The PHY engine (R123) -/

section

variable {d : Device} {p : BitVec 5} {v : Word}

theorem phyComplete_idle (h : d.phyop = .none) : phyComplete d = d := by
  simp only [phyComplete, h]

theorem phyComplete_rd (h : d.phyop = .rd p) : phyComplete d =
    { d with phyop := .none, regs := { d.regs with mirdl := lo8 d.pr[p.toFin], mirdh := hi8 d.pr[p.toFin] } } := by
  simp only [phyComplete, h]

theorem phyComplete_wr (h : d.phyop = .wr p v) :
    phyComplete d = { d with phyop := .none, pr := d.pr.set p.toFin v } := by
  simp only [phyComplete, h]

end

/-- No operation is in flight once the engine has stepped (R123). -/
@[simp] theorem phyComplete_phyop (d : Device) : (phyComplete d).phyop = .none := by
  unfold phyComplete
  split
  · assumption
  · rfl
  · rfl

/-- A device that is not in power save has no operation in flight after the engine's move (R123, R170). -/
theorem scheduled_phy {σ : Schedule} {s : State} {n : Nat} (h : σ n = .phy)
    (hawake : pwrsv (scheduled σ s n).dev.regs = false) : (scheduled σ s (n + 1)).dev.phyop = .none := by
  have hmove := onDevice_dev_awake (s := { scheduled σ s n with agenda := [] }) hawake phyComplete
  rw [scheduled_succ, stepState_event (congrArg ([·]) h), eventState, hmove, phyComplete_phyop]

/-- Settles O42: the engine's step ends whichever operation is in flight, and a fair engine steps while one is. -/
theorem phyCompletion : Obligations.PhyCompletion := by
  refine ⟨fun s rest hagenda => ?_, fun s σ hfair hawake n => ?_⟩
  · refine ⟨_, step_eq s, ?_⟩
    rw [stepState_event hagenda, eventState]
    refine ⟨rfl, fun hawake => ?_⟩
    rw [onDevice_dev_awake (s := { s with agenda := rest }) hawake]
    refine ⟨phyComplete_mem _, phyComplete_phyop _, phyComplete_idle, fun p hrd => ?_, fun p v hwr => ?_⟩
    · rw [phyComplete_rd hrd, lo8_toNat, hi8_toNat]
      exact ⟨rfl, Nat.div_add_mod' _ 256⟩
    · rw [phyComplete_wr hwr]
      refine ⟨rfl, Vector.getElem_set_self .., fun q hq => ?_⟩
      have hne : p.toNat ≠ q.toNat := fun h => hq (BitVec.eq_of_toNat_eq h.symm)
      exact Vector.getElem_set_ne p.isLt q.isLt hne
  · obtain ⟨m, hm, hphy | hnone⟩ := hfair n
    · exact ⟨m + 1, by omega, scheduled_phy hphy (hawake m)⟩
    · exact ⟨m, hm, hnone⟩

end Sys2Proof.Machine
end

section
/-! ## Register accesses inside an operation, and its busy-waits (R107, R115, R117) -/

namespace Sys2Proof.Machine

/-! ### The steps of an access -/

/-- A register access inside an operation: the bank switch, then the step `a`, all in the same states of the two state
machines; `starts` where a busy-wait begins (R107, R115). -/
def accessSteps (p : PhySt) (r : RxSt) (starts : Bool) (id : Byte) (a : Act) : List Micro :=
  [ { act := .send (.bfc 0x1F bselMask), physt := p, rxst := r, pollStart := starts },
    { act := .send (.bfs 0x1F ((idBank id).setWidth 8)), physt := p, rxst := r },
    { act := a, physt := p, rxst := r } ]

/-- What `goto` a step makes of x[POLLCNT] and of x[PHYST] (R115, R117). -/
theorem goto_entering {o : Op} {n : Nat} {s : State} {m : Micro} (hm : (expansion s.cfg o)[n]? = some m) (e : Bool) :
    (goto o n e s).blk.pollcnt = (if e ∧ m.pollStart then 0 else s.blk.pollcnt) ∧ (goto o n e s).blk.physt = m.physt := by
  simp only [goto, hm, and_self]

@[simp] theorem latchLow_log (s : State) : (latchLow s).blk.log = s.blk.log := rfl

/-! ### A clean run inside an operation -/

/-- As `SentFrom`, with the device now `d` and no new model fault. -/
structure CleanFrom (s : State) (o : Op) (k : Nat) (txs : List (List Byte)) (d : Device) (t : State) : Prop
    extends SentFrom s o k txs t where
  dev : t.dev = d
  faults : t.blk.faults = s.blk.faults

section

variable {s t : State} {o : Op} {k : Nat} {txs : List (List Byte)} {d : Device}

theorem State.Stands.cleanFrom (h : s.Stands o k) : CleanFrom s o k [] s.dev s := ⟨h.sentFrom, rfl, rfl⟩

theorem CleanFrom.log_length (h : CleanFrom s o k txs d t) :
    t.blk.log.length = s.blk.log.length + txs.length := by
  simpa using congrArg List.length h.log

theorem CleanFrom.after_frame (h : CleanFrom s o k txs d t) (tx : List Byte) {out : DevOut} (hclean : out.faults = []) :
    CleanFrom s o k (txs ++ [tx]) out.dev (endFrame tx out t) :=
  ⟨h.toSentFrom.after_frame tx out, rfl, by rw [endFrame_faults, hclean, insertFaults_nil, h.faults]⟩

theorem CleanFrom.after_goto (h : CleanFrom s o k txs d t) (n : Nat) (e : Bool) :
    CleanFrom s o n txs d (goto o n e t) :=
  ⟨h.toSentFrom.after_goto n e, (goto_dev ..).trans h.dev, (goto_faults ..).trans h.faults⟩

/-- The engine's step between two frames (R64, R123). -/
theorem CleanFrom.after_phy (h : CleanFrom s o k txs d t) (hawake : pwrsv d.regs = false) :
    CleanFrom s o k txs (phyComplete d) (onDevice phyComplete t) where
  stands := ⟨h.stands.idle, h.stands.bus, h.stands.settled, h.stands.op, h.stands.step⟩
  cfg := h.cfg
  low := h.low
  log := h.log
  dev := by rw [onDevice_dev_awake (by rw [h.dev]; exact hawake), h.dev]
  faults := h.faults

/-- A clean fixed transaction of an operation, with a step that begins no busy-wait to follow. -/
theorem CleanFrom.send (h : CleanFrom s o k txs d t) (hawake : pwrsv d.regs = false) {m m' : Micro} {i : Instr}
    (hm : (expansion s.cfg o)[k]? = some m) (hact : m.act = .send i) (hsrc : i ≠ .src)
    (hm' : (expansion s.cfg o)[k + 1]? = some m') (hstart : m'.pollStart = false) (hclean : (outOf i t).faults = []) :
    CleanFrom s o (k + 1) (txs ++ [encode i]) (outOf i t).dev (stepState t) ∧
      (stepState t).blk.pollcnt = t.blk.pollcnt := by
  have hsent := h.after_frame (encode i) hclean
  rw [← h.cfg] at hm hm'
  have hstep : stepState t = goto o (k + 1) true (endFrame (encode i) (outOf i t) t) := by
    rw [h.stands.stepState_of_micro (by rw [h.dev]; exact hawake) hm (by rw [hact]; rfl) hsrc, hact]
    exact hsent.stands.advance_next (List.getElem?_eq_some_iff.1 hm').1 .unit
  obtain ⟨hpollcnt, -⟩ := goto_entering (s := endFrame (encode i) (outOf i t) t) hm' true
  rw [hstep, hpollcnt, hstart]
  exact ⟨hsent.after_goto (k + 1) true, rfl⟩

end

theorem outOf_bfc_econ1_faults {s : State} (heth : devMacmii s.cfg (bsel s.dev.regs) 0x1F = false) (m : Byte) :
    (outOf (.bfc 0x1F m) s).faults = [] := by
  simp only [outOf, bitFieldOut, heth, devWrite_econ1]
  rfl

theorem outOf_bfs_econ1_faults {s : State} (heth : devMacmii s.cfg (bsel s.dev.regs) 0x1F = false) (m : Byte) :
    (outOf (.bfs 0x1F m) s).faults = [] := by
  simp only [outOf, bitFieldOut, heth, devWrite_econ1]
  rfl

section

variable {s t : State} {o : Op} {k : Nat} {txs : List (List Byte)} {d : Device} {p : PhySt} {r : RxSt} {starts : Bool}
  {id : Byte} {a : Act} (h : CleanFrom s o k txs d t) (hawake : pwrsv d.regs = false)
  (heth : ∀ b, devMacmii s.cfg b 0x1F = false)

include h hawake heth

/-- The bank-switch sequence before an access is clean, and keeps the poll count (R107). -/
theorem CleanFrom.bankSwitch (hsteps : accessSteps p r starts id a <+: (expansion s.cfg o).drop k) :
    CleanFrom s o (k + 2) (txs ++ switchFrames id) (selectBank (idBank id) d) (runState 2 t) ∧
      (runState 2 t).blk.pollcnt = t.blk.pollcnt := by
  obtain ⟨rest, hsteps⟩ := hsteps
  have hmicro := getElem?_of_drop hsteps.symm
  obtain ⟨h₁, hpollcnt₁⟩ := h.send (i := .bfc 0x1F bselMask) hawake (hmicro 0) rfl (by simp) (hmicro 1) rfl
    (outOf_bfc_econ1_faults (h.cfg ▸ heth _) _)
  have hdev : (outOf (.bfc 0x1F bselMask) t).dev =
      { d with regs := { d.regs with econ1 := d.regs.econ1 &&& ~~~bselMask } } := by
    rw [outOf_bfc_econ1_dev (h.cfg ▸ heth _), h.dev]
  rw [hdev] at h₁
  obtain ⟨h₂, hpollcnt₂⟩ := h₁.send (i := .bfs 0x1F ((idBank id).setWidth 8)) hawake (hmicro 1) rfl (by simp)
    (hmicro 2) rfl (outOf_bfs_econ1_faults (h₁.cfg ▸ heth _) _)
  rw [outOf_bfs_econ1_dev (h₁.cfg ▸ heth _), h₁.dev, List.append_assoc] at h₂
  exact ⟨h₂, hpollcnt₂.trans hpollcnt₁⟩

/-- The step after the bank-switch sequence sends its own transaction in the bank selected, and consumes the response. -/
theorem CleanFrom.access (hsteps : accessSteps p r starts id a <+: (expansion s.cfg o).drop k) {i : Instr}
    (hi : ∀ t, actInstr t a = some i) (hsrc : i ≠ .src) :
    ∃ u, CleanFrom s o (k + 2) (txs ++ switchFrames id) (selectBank (idBank id) d) u ∧
      u.blk.pollcnt = t.blk.pollcnt ∧ runState 3 t = consume o a (endFrame (encode i) (outOf i u) u) := by
  obtain ⟨h', hpollcnt⟩ := h.bankSwitch hawake heth hsteps
  obtain ⟨rest, hsteps⟩ := hsteps
  have hm := getElem?_of_drop hsteps.symm 2
  rw [← h'.cfg] at hm
  refine ⟨_, h', hpollcnt, ?_⟩
  exact h'.stands.stepState_of_micro (by rw [h'.dev]; exact hawake) hm (hi _) hsrc

/-- `WRREG id, v` inside an operation, with more steps to come and no model fault (R109). -/
theorem CleanFrom.write {v : Byte} {d' : Device}
    (hsteps : accessSteps p r starts id (.send (.wcr (idAddr id) v)) <+: (expansion s.cfg o).drop k)
    (hmore : k + 3 < (expansion s.cfg o).length)
    (hwrite : ∀ n, devWrite s.cfg n (idAddr id) v (selectBank (idBank id) d) = ⟨d', []⟩) :
    CleanFrom s o (k + 3) (txs ++ writeFrames id v) d' (runState 3 t) := by
  obtain ⟨u, hu, -, hrun⟩ := h.access hawake heth hsteps (fun _ => rfl) (by simp)
  have hout : outOf (.wcr (idAddr id) v) u = ⟨d', [], anyResponse (encode (.wcr (idAddr id) v)) u⟩ := by
    rw [outOf, hu.cfg, hu.dev, hwrite]
    rfl
  have hsent := hu.after_frame (encode (.wcr (idAddr id) v)) (congrArg DevOut.faults hout)
  rw [hrun, consume, hsent.stands.advance_next (by rw [hsent.cfg]; exact hmore)]
  rw [congrArg DevOut.dev hout, List.append_assoc] at hsent
  exact hsent.after_goto (k + 3) true

/-- A read of a register inside an operation: `RDREG`, or one poll of a busy-wait. The last byte of the response is the
register's, and the step consumes it (R108, R115). -/
theorem CleanFrom.fetch (hsteps : accessSteps p r starts id a <+: (expansion s.cfg o).drop k)
    (hi : ∀ t, actInstr t a = some (.rcr (idAddr id) (rcrFill (idMac id))))
    (hclass : devMacmii s.cfg (idBank id) (idAddr id) = idMac id) :
    ∃ u free, CleanFrom s o (k + 2) (txs ++ readFrames id) (selectBank (idBank id) d) u ∧
      u.blk.pollcnt = t.blk.pollcnt ∧ responseByte u = readAt s.cfg free id d ∧ runState 3 t = consume o a u := by
  obtain ⟨u, hu, hpollcnt, hrun⟩ := h.access hawake heth hsteps hi (by simp)
  obtain ⟨bs, free, hout⟩ := rcrOut_value (s := u) (a := idAddr id) (mac := idMac id)
    (by rw [hu.cfg, hu.dev, bsel_selectBank, hclass])
  have hsent := hu.after_frame (encode (.rcr (idAddr id) (rcrFill (idMac id)))) (congrArg DevOut.faults hout)
  rw [congrArg DevOut.dev hout, hu.dev, encode_rcr_rcrFill, List.append_assoc] at hsent
  rw [encode_rcr_rcrFill] at hrun
  refine ⟨_, free, hsent, hpollcnt, ?_, hrun⟩
  rw [responseByte, endFrame_rx, hout, hu.cfg, hu.dev]
  simp [readAt]

/-- `RDPAIR id` at the end of an operation: it returns the two bytes (R112). -/
theorem CleanFrom.readPair_last
    (hlow : accessSteps p r starts id (.read (idAddr id) (idMac id) .pairLow) <+: (expansion s.cfg o).drop k)
    (hhigh : accessSteps p r starts (id + 1) (.read (idAddr (id + 1)) (idMac (id + 1)) .pairHigh) <+:
      (expansion s.cfg o).drop (k + 3))
    (hlast : (expansion s.cfg o).length = k + 6) (hclass : devMacmii s.cfg (idBank id) (idAddr id) = idMac id)
    (hclass' : devMacmii s.cfg (idBank (id + 1)) (idAddr (id + 1)) = idMac (id + 1)) :
    ∃ u f g, runState 6 t = finish (.word (le16 (readAt s.cfg f id d)
        (readAt s.cfg g (id + 1) (selectBank (idBank id) d)))) u ∧
      u.dev = selectBank (idBank (id + 1)) (selectBank (idBank id) d) ∧ u.blk.faults = s.blk.faults ∧
      u.blk.log.length = s.blk.log.length + txs.length + 6 := by
  obtain ⟨u, f, hu, -, hvalue, hrun⟩ := h.fetch hawake heth hlow (fun _ => rfl) hclass
  rw [consume_pairLow, hu.stands.latchLow.advance_next (by rw [latchLow_cfg, hu.cfg]; omega)] at hrun
  have hmid := hu.stands.latchLow.cleanFrom.after_goto (k + 3) true
  have hcfg := hmid.cfg.trans hu.cfg
  have hstands := hmid.stands.cleanFrom
  obtain ⟨w, g, hw, -, hvalue', hrun'⟩ := hstands.fetch (by rw [hmid.dev, latchLow_dev, hu.dev]; exact hawake)
    (by rw [hcfg]; exact heth) (by rw [hcfg]; exact hhigh) (fun _ => rfl) (by rw [hcfg]; exact hclass')
  rw [consume_pairHigh, hw.stands.advance_last (by rw [hw.cfg, hcfg, hlast]), hw.low, hmid.low, latchLow_low, hvalue,
    hvalue', hcfg, hmid.dev, latchLow_dev, hu.dev] at hrun'
  refine ⟨w, f, g, ?_, ?_, ?_, ?_⟩
  · rw [runState_add 3 3, hrun, hrun']
  · rw [hw.dev, hmid.dev, latchLow_dev, hu.dev]
  · exact hw.faults.trans (hmid.faults.trans hu.faults)
  · rw [hw.log_length, hmid.log_length, latchLow_log, hu.log_length]
    simp [readFrames, switchFrames]
    omega

end

/-! ### A busy-wait (R115, R116) -/

/-- Selecting a bank again changes nothing (R107). -/
theorem selectBank_twice (b : Bank) (d : Device) : selectBank b (selectBank b d) = selectBank b d := by
  have hbits : ∀ (x : Byte) (b : Bank), (((x &&& ~~~bselMask) ||| b.setWidth 8) &&& ~~~bselMask) ||| b.setWidth 8 =
      (x &&& ~~~bselMask) ||| b.setWidth 8 := by decide
  simp only [selectBank, hbits]

/-- The device after some accesses to one bank, none of which wrote: ECON1 may differ. -/
def afterPolls (b : Bank) (n : Nat) (d : Device) : Device := if n = 0 then d else selectBank b d

@[simp] theorem afterPolls_zero (b : Bank) (d : Device) : afterPolls b 0 d = d := rfl

@[simp] theorem selectBank_afterPolls (b : Bank) (n : Nat) (d : Device) :
    selectBank b (afterPolls b n d) = afterPolls b (n + 1) d := by
  cases n with
  | zero => rfl
  | succ n => exact selectBank_twice b d

theorem readAt_afterPolls (c : Config) (free id : Byte) (n : Nat) (d : Device) :
    readAt c free id (afterPolls (idBank id) n d) = readAt c free id d := by
  rw [readAt, selectBank_afterPolls]
  rfl

section

variable (b : Bank) (n : Nat) (d : Device)

@[simp] theorem afterPolls_phyop : (afterPolls b n d).phyop = d.phyop := by cases n <;> rfl

@[simp] theorem afterPolls_micmd : (afterPolls b n d).regs.micmd = d.regs.micmd := by cases n <;> rfl

@[simp] theorem pwrsv_afterPolls : pwrsv (afterPolls b n d).regs = pwrsv d.regs := by cases n <;> rfl

end

/-- A limit that is not reached after some polls was not reached after fewer (R115). -/
theorem limitReached_mono {c : Config} {m n : Nat} (h : limitReached c n = false) (hmn : m ≤ n) :
    limitReached c m = false := by
  unfold limitReached at h ⊢
  cases hlimit : c.pollLimit with
  | none => rfl
  | some l =>
    simp only [hlimit, decide_eq_false_iff_not] at h ⊢
    omega

/-- The state of a poll that found its condition unmet, once it is counted (R115). -/
def countPoll (s : State) : State := { s with blk := { s.blk with pollcnt := s.blk.pollcnt + 1 } }

theorem CleanFrom.after_count {s t : State} {o : Op} {k : Nat} {txs : List (List Byte)} {d : Device}
    (h : CleanFrom s o k txs d t) : CleanFrom s o k txs d (countPoll t) where
  stands := ⟨h.stands.idle, h.stands.bus, h.stands.settled, h.stands.op, h.stands.step⟩
  cfg := h.cfg
  low := h.low
  log := h.log
  dev := h.dev
  faults := h.faults

theorem pollAgain_below {s : State} (h : limitReached s.cfg (s.blk.pollcnt + 1) = false) (o : Op) (id : Byte) :
    pollAgain o id s = goto o (s.blk.step + 1 - pollSteps) false (countPoll s) := by
  simp only [pollAgain, h]
  rfl

theorem pollAgain_limit {s : State} (h : limitReached s.cfg (s.blk.pollcnt + 1) = true) (o : Op) (id : Byte) :
    pollAgain o id s = raise (.timeout id) (countPoll s) := by
  simp only [pollAgain, h]
  rfl

section

variable {s t : State} {o : Op} {k : Nat} {txs : List (List Byte)} {d : Device} {p : PhySt} {r : RxSt}
  {id mask : Byte} {cond : Until} (h : CleanFrom s o k txs d t) (hawake : pwrsv d.regs = false)
  (heth : ∀ b, devMacmii s.cfg b 0x1F = false)
  (hsteps : accessSteps p r true id (.poll id mask cond) <+: (expansion s.cfg o).drop k)
  (hclass : devMacmii s.cfg (idBank id) (idAddr id) = idMac id)

include h hawake heth hsteps hclass

/-- A poll that finds its condition met ends the busy-wait: the operation goes on (R115, R116). -/
theorem CleanFrom.poll_met (hmet : ∀ free, pollMet cond (readAt s.cfg free id d) mask = true) :
    ∃ u, CleanFrom s o (k + 2) (txs ++ readFrames id) (selectBank (idBank id) d) u ∧
      u.blk.pollcnt = t.blk.pollcnt ∧ runState 3 t = advance o .unit u := by
  obtain ⟨u, free, hu, hpollcnt, hvalue, hrun⟩ := h.fetch hawake heth hsteps (fun _ => rfl) hclass
  refine ⟨u, hu, hpollcnt, ?_⟩
  rw [hrun, consume, hvalue, if_pos (hmet free)]

/-- A poll that finds its condition unmet is counted, and times out or loops back (R115). -/
theorem CleanFrom.poll_unmet (hunmet : ∀ free, pollMet cond (readAt s.cfg free id d) mask = false) :
    ∃ u, CleanFrom s o (k + 2) (txs ++ readFrames id) (selectBank (idBank id) d) u ∧
      u.blk.pollcnt = t.blk.pollcnt ∧ runState 3 t = pollAgain o id u := by
  obtain ⟨u, free, hu, hpollcnt, hvalue, hrun⟩ := h.fetch hawake heth hsteps (fun _ => rfl) hclass
  refine ⟨u, hu, hpollcnt, ?_⟩
  rw [hrun, consume, hvalue, if_neg (by rw [hunmet free]; exact Bool.false_ne_true)]

/-- A condition that stays unmet is polled as long as the limit is not reached, each time with three frames (R115). -/
theorem CleanFrom.polls_unmet (hunmet : ∀ free, pollMet cond (readAt s.cfg free id d) mask = false) (n : Nat)
    (hlimit : limitReached s.cfg (t.blk.pollcnt + n) = false) :
    CleanFrom s o k (txs ++ (List.replicate n (readFrames id)).flatten) (afterPolls (idBank id) n d)
        (runState (3 * n) t) ∧
      (runState (3 * n) t).blk.pollcnt = t.blk.pollcnt + n := by
  induction n with
  | zero => exact ⟨by simpa [runState] using h, rfl⟩
  | succ n ih =>
    obtain ⟨hn, hcount⟩ := ih (limitReached_mono hlimit (by omega))
    obtain ⟨u, hu, hpollcnt, hrun⟩ := hn.poll_unmet ((pwrsv_afterPolls ..).trans hawake) heth hsteps hclass
      fun free => readAt_afterPolls s.cfg free id n d ▸ hunmet free
    rw [hcount] at hpollcnt
    rw [pollAgain_below (by rw [hu.cfg, hpollcnt]; exact hlimit), hu.stands.step, ← runState_add] at hrun
    have hback := hu.after_count.after_goto k false
    rw [selectBank_afterPolls, List.append_assoc, ← List.flatten_concat, ← List.replicate_succ'] at hback
    obtain ⟨rest, hsteps⟩ := hsteps
    have hm := getElem?_of_drop hsteps.symm 0
    obtain ⟨hkept, -⟩ := goto_entering (s := countPoll u) (n := k) (hu.cfg ▸ hm) false
    rw [Nat.mul_succ, hrun]
    refine ⟨hback, hkept.trans ?_⟩
    rw [if_neg (by simp), countPoll, hpollcnt]
    rfl

/-- The poll that reaches the limit raises Timeout (R115, R122, R157). -/
theorem CleanFrom.polls_timeout (hunmet : ∀ free, pollMet cond (readAt s.cfg free id d) mask = false) {n : Nat}
    (hbelow : limitReached s.cfg (t.blk.pollcnt + n) = false)
    (hlimit : limitReached s.cfg (t.blk.pollcnt + (n + 1)) = true) :
    ∃ u, CleanFrom s o (k + 2) (txs ++ (List.replicate (n + 1) (readFrames id)).flatten)
        (afterPolls (idBank id) (n + 1) d) u ∧
      runState (3 * (n + 1)) t = raise (.timeout id) (countPoll u) := by
  obtain ⟨hn, hcount⟩ := h.polls_unmet hawake heth hsteps hclass hunmet n hbelow
  obtain ⟨u, hu, hpollcnt, hrun⟩ := hn.poll_unmet ((pwrsv_afterPolls ..).trans hawake) heth hsteps hclass
    fun free => readAt_afterPolls s.cfg free id n d ▸ hunmet free
  rw [hcount] at hpollcnt
  rw [pollAgain_limit (by rw [hu.cfg, hpollcnt]; exact hlimit), ← runState_add] at hrun
  rw [selectBank_afterPolls, List.append_assoc, ← List.flatten_concat, ← List.replicate_succ'] at hu
  exact ⟨u, hu, hrun⟩

end

end Sys2Proof.Machine
end

section
/-! ## PHY access (R115 to R124) -/

namespace Sys2Proof.Machine

/-! ### The default map -/

section

variable {c : Config} (hmap : DefaultMap c)

include hmap

theorem devMacmii_default (b : Bank) (a : Addr) : devMacmii c b a = devMacmii Config.default b a := by
  obtain ⟨-, -, hclass⟩ := hmap
  rw [devMacmii, hclass]
  rfl

theorem regValid_default (id : Byte) : regValid c id = regValid Config.default id := by
  obtain ⟨-, hvalid, -⟩ := hmap
  rw [regValid, hvalid]
  rfl

/-- ECON1 is of the ETH class in every bank (R37, R107). -/
theorem econ1_eth (b : Bank) : devMacmii c b 0x1F = false := by
  rw [devMacmii_default hmap]
  revert b
  decide

/-- The steps of readPhy, access by access (R117, R120). -/
theorem expansion_readPhy (p : Byte) : expansion c (.readPhy p) =
    accessSteps .requesting .idle false 0xD4 (.send (.wcr (idAddr 0xD4) p)) ++
    (accessSteps .requesting .idle false 0xD2 (.send (.wcr (idAddr 0xD2) miirdCommand)) ++
    (accessSteps .busyPolling .idle true 0xEA (.poll 0xEA busyMask .clear) ++
    (accessSteps .busyPolling .idle false 0xD2 (.send (.wcr (idAddr 0xD2) 0x00)) ++
    (accessSteps .busyPolling .idle false 0xD8 (.read (idAddr 0xD8) (idMac 0xD8) .pairLow) ++
    accessSteps .busyPolling .idle false (0xD8 + 1)
      (.read (idAddr (0xD8 + 1)) (idMac (0xD8 + 1)) .pairHigh))))) := by
  obtain ⟨hregmap, -, -⟩ := hmap
  rw [expansion, hregmap]
  rfl

/-- The steps of writePhy, access by access (R117, R121). -/
theorem expansion_writePhy (p : Byte) (v : Word) : expansion c (.writePhy p v) =
    accessSteps .requesting .idle false 0xD4 (.send (.wcr (idAddr 0xD4) p)) ++
    (accessSteps .requesting .idle false 0xD6 (.send (.wcr (idAddr 0xD6) (lo8 v))) ++
    (accessSteps .requesting .idle false 0xD7 (.send (.wcr (idAddr 0xD7) (hi8 v))) ++
    accessSteps .busyPolling .idle true 0xEA (.poll 0xEA busyMask .clear))) := by
  obtain ⟨hregmap, -, -⟩ := hmap
  rw [expansion, hregmap]
  rfl

/-- Where the busy-wait of readPhy stands in its expansion (R120). -/
theorem readPhy_poll (p : Byte) : accessSteps .busyPolling .idle true 0xEA (.poll 0xEA busyMask .clear) <+:
    (expansion c (.readPhy p)).drop 6 := by
  rw [expansion_readPhy hmap]
  exact ⟨_, rfl⟩

/-- Where the busy-wait of writePhy stands in its expansion (R121). -/
theorem writePhy_poll (p : Byte) (v : Word) :
    accessSteps .busyPolling .idle true 0xEA (.poll 0xEA busyMask .clear) <+: (expansion c (.writePhy p v)).drop 9 := by
  rw [expansion_writePhy hmap]
  exact ⟨_, rfl⟩

/-- A PHY address of five bits passes every check of readPhy and of writePhy (R119, R120, R121). -/
theorem phy_request_valid {p : Byte} (hp : p.toNat < 32) (v : Word) :
    firstFailing c (.readPhy p) = none ∧ firstFailing c (.writePhy p v) = none := by
  have hle : p ≤ 31 := BitVec.le_def.2 (by simpa using Nat.le_of_lt_succ hp)
  obtain ⟨-, -, -, -, hread, hwrite, -⟩ := whichRequestsAreInvalid c 0 p 0 v
  have ⟨hregmap, _, _⟩ := hmap
  simp only [hread, hwrite, hle, hregmap, PairValid, regValid_default hmap, true_and]
  decide

end

/-! ### MISTAT and the busy-wait (R33, R44, R116) -/

theorem readAt_mistat (c : Config) (free : Byte) (d : Device) : readAt c free 0xEA d = mistatValue d.phyop :=
  devRead_mistat (regAt_selectBank 0xEA d)

theorem mistat_idle {d : Device} (h : d.phyop = .none) (c : Config) (free : Byte) :
    pollMet .clear (readAt c free 0xEA d) busyMask = true := by
  rw [readAt_mistat, mistatValue, if_pos h]
  rfl

theorem mistat_busy {d : Device} (h : d.phyop ≠ .none) (c : Config) (free : Byte) :
    pollMet .clear (readAt c free 0xEA d) busyMask = false := by
  rw [readAt_mistat, mistatValue, if_neg h]
  rfl

section

variable {s : State} {o : Op} {k : Nat} (hready : s.BusReady) (hmap : DefaultMap s.cfg)
  (hop : s.blk.op = some o) (hstep : s.blk.step = k)
  (hsteps : accessSteps .busyPolling .idle true 0xEA (.poll 0xEA busyMask .clear) <+: (expansion s.cfg o).drop k)
  (hcount : s.blk.pollcnt = 0) (hbusy : s.dev.phyop ≠ .none)

include hready hmap hop hstep hsteps hcount hbusy

/-- A busy-wait on the PHY under K busy polls and then the engine's step: the poll after it ends the wait (R116). -/
theorem runState_busy_then_idle (K : Nat) (hlimit : ∀ n, s.cfg.pollLimit = some n → K < n)
    (hagenda : s.agenda = List.replicate (3 * K) .block ++ [.phy]) :
    ∃ u, u.Stands o (k + 2) ∧ u.cfg = s.cfg ∧ u.blk.pollcnt = K ∧ u.dev.phyop = .none ∧
      u.blk.log.length = s.blk.log.length + 3 * (K + 1) ∧ runState (3 * K + 1 + 3) s = advance o .unit u := by
  obtain ⟨hbus, hsettled, hawake⟩ := hready
  have hstands : (withMoves [] s).Stands o k := ⟨rfl, hbus, hsettled, hop, hstep⟩
  have hclass : devMacmii s.cfg (idBank 0xEA) (idAddr 0xEA) = idMac 0xEA := devMacmii_default hmap _ _
  have hbelow : limitReached s.cfg (s.blk.pollcnt + K) = false := by
    unfold limitReached
    split
    · rfl
    · next n hn => simpa [hcount] using hlimit n hn
  obtain ⟨hbusies, hpolls⟩ := hstands.cleanFrom.polls_unmet hawake (econ1_eth hmap) hsteps hclass
    (mistat_busy hbusy s.cfg) K hbelow
  have hphy := hbusies.after_phy ((pwrsv_afterPolls ..).trans hawake)
  obtain ⟨u, hu, hpollcnt, hrun⟩ := hphy.poll_met
    ((phyComplete_pwrsv _).trans ((pwrsv_afterPolls ..).trans hawake)) (econ1_eth hmap) hsteps hclass
    (mistat_idle (phyComplete_phyop _) s.cfg)
  have hengine : runState (3 * K + 1) s = onDevice phyComplete (runState (3 * K) (withMoves [] s)) := by
    rw [← runState_blocks_phy rfl hbusies.stands.idle, ← hagenda]
    rfl
  refine ⟨u, hu.stands, hu.cfg, ?_, ?_, ?_, ?_⟩
  · rw [hpollcnt, onDevice_pollcnt, hpolls]
    exact (congrArg (· + K) hcount).trans (Nat.zero_add K)
  · rw [hu.dev]
    exact phyComplete_phyop _
  · rw [hu.log_length]
    simp [readFrames, switchFrames, withMoves]
    omega
  · rw [runState_add (3 * K + 1) 3, hengine, hrun]

end

/-- Settles O45: K polls find the engine busy, its step comes, and the next poll ends the wait. -/
theorem busyPhyIsPolledKPlusOneTimes : Obligations.BusyPhyIsPolledKPlusOneTimes := by
  refine ⟨fun s p K hready hmap hop hstep hcount hbusy hlimit hagenda => ?_,
    fun s p v K hready hmap hop hstep hcount hbusy hlimit hagenda => ?_⟩
  · obtain ⟨u, hu, hcfg, hpollcnt, hidle, hlog, hrun⟩ := runState_busy_then_idle hready hmap hop hstep
      (readPhy_poll hmap p) hcount hbusy K hlimit hagenda
    have hnext : (expansion u.cfg (.readPhy p))[9]? =
        some { act := .send (.bfc 0x1F bselMask), physt := .busyPolling } := by
      rw [hcfg, expansion_readPhy hmap]
      rfl
    obtain ⟨hkept, hphyst⟩ := goto_entering hnext true
    refine ⟨_, run_eq _ s, ?_⟩
    rw [hrun, hu.advance_next (List.getElem?_eq_some_iff.1 hnext).1]
    refine ⟨(goto_op ..).trans hu.op, goto_step .., hphyst, hkept.trans hpollcnt, ?_, ?_⟩
    · rw [goto_dev, hidle]
    · rw [goto_log, hlog]
  · obtain ⟨u, hu, hcfg, hpollcnt, hidle, hlog, hrun⟩ := runState_busy_then_idle hready hmap hop hstep
      (writePhy_poll hmap p v) hcount hbusy K hlimit hagenda
    refine ⟨_, run_eq _ s, ?_⟩
    rw [hrun, hu.advance_last (by rw [hcfg, expansion_writePhy hmap]; rfl)]
    exact ⟨rfl, rfl, rfl, rfl, hpollcnt, hidle, hlog⟩

/-- Settles O46: of n polls that find the engine busy the last reaches the limit, and nothing follows it. -/
theorem busyPhyTimesOut : Obligations.BusyPhyTimesOut := by
  intro s p v n hquiet hmap hop hcount hbusy hlimit hn
  obtain ⟨hidle, hbus, hsettled, hawake⟩ := hquiet
  obtain ⟨o, k, hop, hstep, hsteps⟩ : ∃ o k, s.blk.op = some o ∧ s.blk.step = k ∧
      accessSteps .busyPolling .idle true 0xEA (.poll 0xEA busyMask .clear) <+: (expansion s.cfg o).drop k := by
    rcases hop with ⟨hop, hstep⟩ | ⟨hop, hstep⟩
    · exact ⟨_, _, hop, hstep, readPhy_poll hmap p⟩
    · exact ⟨_, _, hop, hstep, writePhy_poll hmap p v⟩
  have hstands : s.Stands o k := ⟨hidle, hbus, hsettled, hop, hstep⟩
  obtain ⟨m, rfl⟩ := Nat.exists_eq_add_of_le' hn
  obtain ⟨u, hu, hrun⟩ := hstands.cleanFrom.polls_timeout hawake (econ1_eth hmap) hsteps (devMacmii_default hmap _ _)
    (mistat_busy hbusy s.cfg) (n := m) (by simp [limitReached, hlimit, hcount]) (by simp [limitReached, hlimit, hcount])
  refine ⟨_, run_eq _ s, ?_⟩
  rw [hrun]
  refine ⟨rfl, rfl, rfl, ?_, ?_, ?_⟩
  · exact (congrArg Device.phyop hu.dev).trans (afterPolls_phyop ..)
  · exact (congrArg (·.regs.micmd) hu.dev).trans (afterPolls_micmd ..)
  · refine hu.log_length.trans ?_
    simp [readFrames, switchFrames]
    omega

/-! ### The MII registers (R44, R120, R121) -/

section

variable {c : Config} {n : Nat} {a : Addr} {d : Device}

/-- The read command starts a PHY read in an idle engine (R91, R123). -/
theorem devWrite_micmd_start (h : regAt (devLoc d.regs a) = .micmd) (hidle : d.phyop = .none) :
    devWrite c n a miirdCommand d =
      ⟨{ d with phyop := .rd d.regs.miregadr, regs := { d.regs with micmd := miirdCommand } }, []⟩ := by
  rw [devWrite_micmd h, if_pos (by decide), phyStart_idle]
  · rfl
  · exact hidle

/-- Clearing MICMD starts nothing (R91, R120). -/
theorem devWrite_micmd_clear (h : regAt (devLoc d.regs a) = .micmd) :
    devWrite c n a 0x00 d = ⟨{ d with regs := { d.regs with micmd := 0x00 } }, []⟩ := by
  rw [devWrite_micmd h, if_neg (by decide)]
  rfl

/-- A write of MIWRH starts a PHY write of both bytes in an idle engine (R91, R123). -/
theorem devWrite_miwrh_start (h : regAt (devLoc d.regs a) = .miwrh) (hidle : d.phyop = .none) (v : Byte) :
    devWrite c n a v d =
      ⟨{ d with phyop := .wr d.regs.miregadr (le16 d.regs.miwrl v), regs := { d.regs with miwrh := v } }, []⟩ := by
  rw [devWrite_miwrh h, phyStart_idle]
  exact hidle

end

theorem readAt_mirdl (c : Config) (free : Byte) (d : Device) : readAt c free 0xD8 d = d.regs.mirdl := by
  have h : regAt (devLoc (selectBank (idBank 0xD8) d).regs (idAddr 0xD8)) = .mirdl := regAt_selectBank 0xD8 d
  simp only [readAt, devRead, h]
  rfl

theorem readAt_mirdh (c : Config) (free : Byte) (d : Device) : readAt c free (0xD8 + 1) d = d.regs.mirdh := by
  have h : regAt (devLoc (selectBank (idBank (0xD8 + 1)) d).regs (idAddr (0xD8 + 1))) = .mirdh :=
    regAt_selectBank (0xD8 + 1) d
  simp only [readAt, devRead, h]
  rfl

/-- MIREGADR holds a PHY address of five bits as it is (R44). -/
theorem miregadr_toNat {p : Byte} (hp : p.toNat < 32) : ((p &&& 0x1F).setWidth 5 : BitVec 5).toNat = p.toNat := by
  rw [setWidth_five_and_mask, BitVec.toNat_setWidth, Nat.mod_eq_of_lt hp]

/-- A request, then the block's first moves, then the engine's step (R64, R123, R158). -/
theorem runState_request_blocks_phy {s : State} {o : Op} (hop : s.blk.op = none) (hvalid : firstFailing s.cfg o = none)
    {n : Nat} (hidle : (runState n (started o s)).agenda = []) :
    runState (n + 2) { s with agenda := .request o :: List.replicate n .block ++ [.phy] } =
      onDevice phyComplete (runState n (started o s)) := by
  have hstart : stepState { s with agenda := .request o :: List.replicate n .block ++ [.phy] } =
      withMoves (List.replicate n .block ++ [.phy]) (started o s) := by
    rw [stepState_event rfl, eventState, request]
    simp only [hop, hvalid]
    exact goto_withMoves _ { s with agenda := [], blk := { s.blk with op := some o } } o 0 true
  rw [runState, hstart, runState_blocks_phy (goto_agenda ..) hidle]

section

variable {s t : State} {txs : List (List Byte)} {d : Device} {p : Byte} (hmap : DefaultMap s.cfg)
  (hawake : pwrsv d.regs = false)

include hmap hawake

/-- The first six steps of readPhy leave a read of PR[p] in flight (R120, R123). -/
theorem CleanFrom.readPhy_start (h : CleanFrom s (.readPhy p) 0 txs d t) (hidle : d.phyop = .none) :
    ∃ d', CleanFrom s (.readPhy p) 6 (txs ++ writeFrames 0xD4 p ++ writeFrames 0xD2 miirdCommand) d' (runState 6 t) ∧
      d'.phyop = .rd ((p &&& 0x1F).setWidth 5) ∧ d'.pr = d.pr ∧ pwrsv d'.regs = false := by
  have hexp := expansion_readPhy hmap p
  have haddress := h.write hawake (econ1_eth hmap) (by rw [hexp]; exact ⟨_, rfl⟩)
    (by rw [hexp]; exact (by decide : 3 < 18)) fun _ => devWrite_miregadr (regAt_selectBank 0xD4 _)
  have hcommand := haddress.write hawake (econ1_eth hmap) (by rw [hexp]; exact ⟨_, rfl⟩)
    (by rw [hexp]; exact (by decide : 6 < 18)) fun _ => devWrite_micmd_start (regAt_selectBank 0xD2 _) hidle
  exact ⟨_, hcommand, rfl, rfl, hawake⟩

/-- The last twelve steps of readPhy with the engine idle: one poll, MICMD cleared, and MIRD read (R120, R124). -/
theorem CleanFrom.readPhy_finish (h : CleanFrom s (.readPhy p) 6 txs d t) (hidle : d.phyop = .none) :
    ∃ u, runState 12 t = finish (.word (le16 d.regs.mirdl d.regs.mirdh)) u ∧ u.dev.pr = d.pr ∧
      u.dev.regs.micmd = 0 ∧ u.blk.faults = s.blk.faults ∧ u.blk.log.length = s.blk.log.length + txs.length + 12 := by
  have hexp := expansion_readPhy hmap p
  obtain ⟨u, hu, -, hpoll⟩ := h.poll_met hawake (econ1_eth hmap) (readPhy_poll hmap p) (devMacmii_default hmap _ _)
    (mistat_idle hidle _)
  rw [hu.stands.advance_next (by rw [hu.cfg, hexp]; exact (by decide : 9 < 18))] at hpoll
  have hclear := (hu.after_goto 9 true).write hawake (econ1_eth hmap) (by rw [hexp]; exact ⟨_, rfl⟩)
    (by rw [hexp]; exact (by decide : 12 < 18)) fun _ => devWrite_micmd_clear (regAt_selectBank 0xD2 _)
  obtain ⟨w, f, g, hread, hdev, hfaults, hlog⟩ := hclear.readPair_last (id := 0xD8) hawake (econ1_eth hmap)
    (by rw [hexp]; exact ⟨_, rfl⟩) (by rw [hexp]; exact ⟨_, rfl⟩) (by rw [hexp]; rfl) (devMacmii_default hmap _ _)
    (devMacmii_default hmap _ _)
  rw [readAt_mirdl, readAt_mirdh] at hread
  refine ⟨w, ?_, ?_, ?_, hfaults, ?_⟩
  · rw [runState_add 3 9, hpoll, runState_add 3 6, hread]
    rfl
  · rw [hdev]
    rfl
  · rw [hdev]
    rfl
  · rw [hlog]
    simp [readFrames, writeFrames, switchFrames]
    omega

/-- The first nine steps of writePhy leave a write of PR[p] in flight (R121, R123). -/
theorem CleanFrom.writePhy_start {v : Word} (h : CleanFrom s (.writePhy p v) 0 txs d t) (hidle : d.phyop = .none) :
    ∃ d', CleanFrom s (.writePhy p v) 9
        (txs ++ writeFrames 0xD4 p ++ writeFrames 0xD6 (lo8 v) ++ writeFrames 0xD7 (hi8 v)) d' (runState 9 t) ∧
      d'.phyop = .wr ((p &&& 0x1F).setWidth 5) v ∧ d'.pr = d.pr ∧ pwrsv d'.regs = false := by
  have hexp := expansion_writePhy hmap p v
  have haddress := h.write hawake (econ1_eth hmap) (by rw [hexp]; exact ⟨_, rfl⟩)
    (by rw [hexp]; exact (by decide : 3 < 12)) fun _ => devWrite_miregadr (regAt_selectBank 0xD4 _)
  obtain ⟨d₂, hlow, hidle₂, hmiregadr, hmiwrl, hpr, hawake₂⟩ : ∃ d₂, CleanFrom s (.writePhy p v) 6
      (txs ++ writeFrames 0xD4 p ++ writeFrames 0xD6 (lo8 v)) d₂ (runState 6 t) ∧ d₂.phyop = .none ∧
      d₂.regs.miregadr = (p &&& 0x1F).setWidth 5 ∧ d₂.regs.miwrl = lo8 v ∧ d₂.pr = d.pr ∧ pwrsv d₂.regs = false :=
    ⟨_, haddress.write hawake (econ1_eth hmap) (by rw [hexp]; exact ⟨_, rfl⟩) (by rw [hexp]; exact (by decide : 6 < 12))
      fun _ => devWrite_miwrl (regAt_selectBank 0xD6 _), hidle, rfl, rfl, rfl, hawake⟩
  have hhigh := hlow.write hawake₂ (econ1_eth hmap) (by rw [hexp]; exact ⟨_, rfl⟩)
    (by rw [hexp]; exact (by decide : 9 < 12)) fun _ => devWrite_miwrh_start (regAt_selectBank 0xD7 _) hidle₂ _
  refine ⟨_, hhigh, ?_, hpr, hawake₂⟩
  change PhyOp.wr d₂.regs.miregadr (le16 d₂.regs.miwrl (hi8 v)) = _
  rw [hmiregadr, hmiwrl, le16_lo8_hi8]

/-- The last three steps of writePhy with the engine idle: one poll, and the return (R117, R121). -/
theorem CleanFrom.writePhy_finish {v : Word} (h : CleanFrom s (.writePhy p v) 9 txs d t) (hidle : d.phyop = .none) :
    ∃ u, runState 3 t = finish .unit u ∧ u.dev.pr = d.pr ∧ u.blk.faults = s.blk.faults ∧
      u.blk.log.length = s.blk.log.length + txs.length + 3 := by
  obtain ⟨u, hu, -, hpoll⟩ := h.poll_met hawake (econ1_eth hmap) (writePhy_poll hmap p v) (devMacmii_default hmap _ _)
    (mistat_idle hidle _)
  rw [hu.stands.advance_last (by rw [hu.cfg, expansion_writePhy hmap]; rfl)] at hpoll
  refine ⟨u, hpoll, ?_, hu.faults, ?_⟩
  · rw [hu.dev]
    rfl
  · rw [hu.log_length]
    simp [readFrames, switchFrames, Nat.add_assoc]

end

/-- The block at the first step of an operation just requested: nothing is recorded, and the device is as it was. -/
theorem started_cleanFrom {s : State} (hquiet : s.Quiet) (o : Op) : CleanFrom s o 0 [] s.dev (started o s) :=
  ⟨started_sentFrom hquiet o, started_dev o s, goto_faults ..⟩

/-- Settles O43: the engine puts PR[p] in MIRD before the first poll, which meets the condition, and the pair is read. -/
theorem readPhyReturnsThePhyRegister : Obligations.ReadPhyReturnsThePhyRegister := by
  intro s p hquiet hop hmap hidle hp
  have ⟨_, _, _, hawake⟩ := hquiet
  obtain ⟨d, hstart, hflight, hpr, hawake'⟩ := (started_cleanFrom hquiet _).readPhy_start hmap hawake hidle
  obtain ⟨u, hrun, hpr', hmicmd, hfaults, hlog⟩ := (hstart.after_phy hawake').readPhy_finish hmap
    ((phyComplete_pwrsv d).trans hawake') (phyComplete_phyop d)
  have hengine := runState_request_blocks_phy hop (phy_request_valid hmap hp 0).1 (n := 6) hstart.stands.idle
  rw [phyComplete_rd hflight] at hrun hpr'
  have hvalue : le16 (lo8 d.pr[((p &&& 0x1F).setWidth 5 : BitVec 5).toFin])
      (hi8 d.pr[((p &&& 0x1F).setWidth 5 : BitVec 5).toFin]) = s.dev.pr[p.toNat] := by
    rw [le16_lo8_hi8, hpr]
    exact getElem_congr_idx (c := s.dev.pr) (miregadr_toNat hp)
  refine ⟨_, run_eq 20 _, ?_⟩
  rw [runState_add 8 12, hengine, hrun, hvalue]
  exact ⟨rfl, rfl, rfl, rfl, hpr'.trans hpr, hmicmd, hlog, hfaults⟩

/-- Settles O44: the engine stores the value before the first poll, which meets the condition. -/
theorem writePhyStoresThePhyRegister : Obligations.WritePhyStoresThePhyRegister := by
  intro s p v hquiet hop hmap hidle hp
  have ⟨_, _, _, hawake⟩ := hquiet
  obtain ⟨d, hstart, hflight, hpr, hawake'⟩ := (started_cleanFrom hquiet _).writePhy_start hmap hawake hidle
  obtain ⟨u, hrun, hpr', hfaults, hlog⟩ := (hstart.after_phy hawake').writePhy_finish hmap
    ((phyComplete_pwrsv d).trans hawake') (phyComplete_phyop d)
  have hengine := runState_request_blocks_phy hop (phy_request_valid hmap hp v).2 (n := 9) hstart.stands.idle
  have hstored : u.dev.pr = s.dev.pr.set p.toNat v := by
    rw [hpr', phyComplete_wr hflight, ← hpr]
    simp only [BitVec.val_toFin, miregadr_toNat hp]
  refine ⟨_, run_eq 14 _, ?_⟩
  rw [runState_add 11 3, hengine, hrun]
  exact ⟨rfl, rfl, rfl, hstored, hlog, hfaults⟩

end Sys2Proof.Machine
end

section
/-! ## A stream whose bytes are known (R61, R95) -/

namespace Sys2Proof.Machine

/-- A stream whose every byte is known is those bytes. -/
theorem readBuffer_data_eq {r : DevRegs} {m : List Host.Cell} {p : Ptr} {bs : List Byte} (draw : Nat)
    (h : ∀ k < bs.length, Memory.read m ((advanceRead r)^[k] p).toNat = bs[k]?) :
    (readBuffer r m bs.length p draw).data = bs := by
  refine List.ext_getElem? fun k => ?_
  by_cases hk : k < bs.length
  · have hread := h k hk
    rw [List.getElem?_eq_getElem hk] at hread ⊢
    rw [readBuffer_get _ _ _ _ _ _ hk, memRead_of_read hread]
  · rw [List.getElem?_eq_none (by rw [readBuffer_length]; omega), List.getElem?_eq_none (by omega)]

/-- RBM's response is a free byte and the stream from ERDPT on (R95). -/
theorem execState_rbm_rx {s : State} (hready : s.BusReady) (fill : List Byte) : (execState (.rbm fill) s).blk.rx =
    Config.freeByte s.draws :: (readBuffer s.dev.regs s.dev.mem fill.length s.dev.regs.erdpt (s.draws + 1)).data := by
  rw [execState_ready (by simp) hready]
  rfl

end Sys2Proof.Machine
end

section
/-! ## The receive ring and the RX engine (R63, R142 to R144) -/

namespace Sys2Proof.Machine

/-! ### Ring arithmetic (R63) -/

section

variable {g : Ring} {p : Nat}

theorem Ring.contains_iff : g.contains p = true ↔ g.first ≤ p ∧ p ≤ g.last := decide_eq_true_iff

/-- Two advances round the ring are one of their sum. -/
theorem Ring.add_add (g : Ring) (p j k : Nat) : g.add (g.add p j) k = g.add p (j + k) := by
  simp only [Ring.add, Nat.add_sub_cancel_left, Nat.mod_add_mod, Nat.add_assoc]

/-- Fewer than R bytes on, the distance to a place is the bytes it is on. -/
theorem Ring.dist_add (hp : g.contains p = true) {k : Nat} (hk : k < g.size) : g.dist p (g.add p k) = k := by
  obtain ⟨hfirst, -⟩ := contains_iff.1 hp
  have hdiff : ((g.add p k : Nat) : Int) - p = ((p - g.first + k : Nat) : Int) % g.size - ((p - g.first : Nat) : Int) := by
    simp only [Ring.add]
    omega
  have hback : ((p - g.first + k : Nat) : Int) - ((p - g.first : Nat) : Int) = k := by omega
  rw [Ring.dist, hdiff, Int.emod_sub_emod, hback, Int.emod_eq_of_lt (by omega) (by omega), Int.toNat_natCast]

theorem Ring.dist_lt_size (g : Ring) (p q : Nat) : g.dist p q < g.size := by
  have hsize : 0 < g.size := Nat.succ_pos _
  have hlt := Int.emod_lt_of_pos ((q : Int) - p) (b := g.size) (by omega)
  have hpos := Int.emod_nonneg ((q : Int) - p) (b := g.size) (by omega)
  simp only [Ring.dist]
  omega

theorem Ring.dist_self (g : Ring) (p : Nat) : g.dist p p = 0 := by
  rw [Ring.dist, Int.sub_self, Int.zero_emod, Int.toNat_zero]

/-- Places fewer than R bytes on are apart. -/
theorem Ring.add_inj (hp : g.contains p = true) {j k : Nat} (hj : j < g.size) (hk : k < g.size)
    (h : g.add p j = g.add p k) : j = k := by
  rw [← Ring.dist_add hp hj, h, Ring.dist_add hp hk]

/-- One byte short of a whole turn is the place before. -/
theorem Ring.add_size_sub_one (hp : g.contains p = true) :
    g.add p (g.size - 1) = if p = g.first then g.last else p - 1 := by
  obtain ⟨hfirst, hlast⟩ := contains_iff.1 hp
  have hsize : g.size = g.last - g.first + 1 := rfl
  rw [Ring.add]
  split
  next hstart => rw [Nat.mod_eq_of_lt (by omega)]; omega
  next hlater =>
    have hturn : p - g.first + (g.size - 1) = p - 1 - g.first + g.size := by omega
    rw [hturn, Nat.add_mod_right, Nat.mod_eq_of_lt (by omega)]
    omega

/-- Bytes stored round the ring stand at their places when they do not come round to the first one. -/
theorem writeRing_get (hp : g.contains p = true) (bs : List Byte) (i : Nat) (m : List Host.Cell)
    (hfit : i + bs.length ≤ g.size) {k : Nat} (hk : k < bs.length) :
    Memory.read (writeRing g p bs i m) (g.add p (i + k)) = bs[k]? := by
  induction bs generalizing i m k with
  | nil => simp at hk
  | cons b bs ih =>
    rw [List.length_cons] at hfit hk
    rw [writeRing]
    cases k with
    | zero =>
      rw [writeRing_other, Nat.add_zero, List.getElem?_cons_zero]
      · exact Memory.read_write_same ..
      · intro j hj hsame
        have := Ring.add_inj hp (by omega) (by omega) hsame
        omega
    | succ k =>
      have hplace : i + (k + 1) = i + 1 + k := by omega
      rw [hplace, ih _ _ (by omega) (by omega), List.getElem?_cons_succ]

end

/-! ### Where a packet places the next one (R143) -/

/-- ERXWRPT moves on by the bytes the frame takes (R142, R143). -/
theorem place_writePtr (o : RxOdd) (g : Ring) (p len : Nat) :
    (place o g p len).writePtr = g.add p (rxNeed o len) := by
  cases o with
  | shortOdd => simp [place, rxNeed]
  | padEven =>
    by_cases hodd : len % 2 = 1
    · simp [place, rxNeed, hodd, Ring.add_add]
    · simp [place, rxNeed, hodd]

theorem place_padEven_nextPacket (g : Ring) (p len : Nat) :
    (place .padEven g p len).nextPacket = (place .padEven g p len).writePtr := rfl

theorem place_shortOdd_nextPacket {g : Ring} (hg : g.first ≤ g.last) (p len : Nat) :
    (place .shortOdd g p len).nextPacket =
      if g.add p (6 + len) % 2 = 1 then
        (if g.add p (6 + len) = g.first then g.last else g.add p (6 + len) - 1)
      else g.add p (6 + len) := by
  simp only [place]
  rw [Ring.add_size_sub_one (Ring.contains_iff.2 (Ring.add_le hg p _))]

/-- In a ring of even start and size, an even number of bytes on from an even place is an even place. -/
theorem Ring.add_even {g : Ring} {p k : Nat} (hp : g.first ≤ p) (hfirst : g.first % 2 = 0) (hsize : g.size % 2 = 0)
    (heven : p % 2 = 0) (hk : k % 2 = 0) : g.add p k % 2 = 0 := by
  have hmod : (p - g.first + k) % g.size % 2 = (p - g.first + k) % 2 :=
    Nat.mod_mod_of_dvd _ (Nat.dvd_of_mod_eq_zero hsize)
  rw [Ring.add, Nat.add_mod, hmod, hfirst]
  omega

/-- Settles O56: the values are `place`'s; padEven moves on by an even number of bytes, shortOdd steps back from an odd
place, which is not the ring's first. -/
theorem nextPacketPointerIsEven : Obligations.NextPacketPointerIsEven := by
  intro o first last p len hfirst hlast
  have hring : first ≤ last := hfirst.trans hlast
  refine ⟨?_, ?_, fun hstart hsize heven => ?_⟩
  · rintro rfl
    refine ⟨?_, rfl⟩
    rw [place_writePtr]
    by_cases hodd : len % 2 = 1
    · have hbytes : p - first + 7 + len = p - first + (6 + len + 1) := by omega
      rw [if_pos hodd, hbytes, rxNeed, if_pos ⟨rfl, hodd⟩]
      rfl
    · rw [if_neg hodd, Nat.add_assoc, rxNeed, if_neg fun h => hodd h.2]
      rfl
  · rintro rfl
    have hafter : Ring.add ⟨first, last⟩ p (6 + len) = first + (p - first + 6 + len) % (last - first + 1) := by
      rw [Ring.add, Nat.add_assoc]
      rfl
    rw [← hafter]
    exact ⟨rfl, place_shortOdd_nextPacket hring p len⟩
  · cases o with
    | padEven =>
      rw [place_padEven_nextPacket, place_writePtr]
      refine Ring.add_even hfirst hstart hsize heven ?_
      simp only [rxNeed, true_and]
      split <;> omega
    | shortOdd =>
      rw [place_shortOdd_nextPacket hring]
      split
      next hodd =>
        have hne : Ring.add ⟨first, last⟩ p (6 + len) ≠ first := by omega
        rw [if_neg hne]
        omega
      next heven => omega

/-! ### An arriving frame (R142) -/

/-- The free space is never more than the ring. -/
theorem rxFree_le_size (r : DevRegs) : rxFree r ≤ (ringOf r).size := by
  unfold rxFree
  split
  · exact Nat.le_refl _
  · exact Nat.le_of_lt (Ring.dist_lt_size ..)

/-- A frame takes its header, its own bytes and sometimes a padding byte. -/
theorem le_rxNeed (o : RxOdd) (len : Nat) : 6 + len ≤ rxNeed o len := Nat.le_add_right ..

/-- ERXWRPT inside the ring (R63). -/
theorem ringOf_contains {r : DevRegs} (h : r.erxst ≤ r.erxwrpt ∧ r.erxwrpt ≤ r.erxnd) :
    (ringOf r).contains r.erxwrpt.toNat = true :=
  Ring.contains_iff.2 h

section

variable {c : Config} {n : Nat} {f : List Byte} {w : Word} {d : Device}

theorem rxArrive_disabled (h : rxen d.regs = false) : rxArrive c n f w d = d := by
  rcases rxArrive_cases c n f w d with e | ⟨henabled, -⟩
  · exact e
  · rw [h] at henabled
    cases henabled

theorem rxArrive_deposits (he : rxen d.regs = true) (h1 : 1 ≤ f.length) (h2 : f.length ≤ 0xFFFF)
    (hin : (ringOf d.regs).contains d.regs.erxwrpt.toNat = true) (hfit : rxNeed c.rxOdd f.length < rxFree d.regs)
    (hcount : d.regs.epktcnt ≠ 255) : rxArrive c n f w d = rxDeposit c f w d := by
  have hkept : ¬(d.regs.epktcnt = 255 ∨ rxFits c n f.length d.regs = false) := by
    rw [rxFits_inside hin, decide_eq_false_iff_not, not_or, not_not]
    exact ⟨hcount, hfit⟩
  rw [rxArrive_enabled he h1 h2, if_neg hkept, if_pos hin]

/-- With ERXWRPT outside the ring an arriving frame is dropped, or counted (log 14). -/
theorem rxArrive_outside (he : rxen d.regs = true) (h1 : 1 ≤ f.length) (h2 : f.length ≤ 0xFFFF)
    (hout : ¬(ringOf d.regs).contains d.regs.erxwrpt.toNat = true) :
    rxArrive c n f w d = rxDrop d ∨ (d.regs.epktcnt ≠ 255 ∧ rxArrive c n f w d = rxDepositOutside c n d) := by
  rw [rxArrive_enabled he h1 h2, if_neg hout]
  split
  next => exact .inl rfl
  next hkept => exact .inr ⟨fun hcount => hkept (.inl hcount), rfl⟩

/-- A deposit sets the packet-interrupt flag: the count is not 0, or the stored bit is set (R144). -/
theorem pktif_deposited {r : DevRegs} (hcount : r.epktcnt ≠ 255) (q : Ptr) :
    pktif c { r with erxwrpt := q, epktcnt := r.epktcnt + 1, eir := eirDeposited c r.eir } = true := by
  unfold pktif eirDeposited
  cases c.pktif with
  | countNonZero =>
    have hnext : r.epktcnt + 1 ≠ 0 := by bv_omega
    simpa using hnext
  | stickyUntilCleared => simp [pktifMask]

end

/-- The event of an arriving frame is the RX engine's move, and leaves the block alone (R64). -/
theorem stepState_rx {s : State} {f : List Byte} {w : Word} {rest : List Event} (h : s.agenda = .rx f w :: rest) :
    stepState s = onDevice (rxArrive s.cfg s.draws f w) { s with agenda := rest } :=
  stepState_event h

theorem stepState_rx_dev {s : State} {f : List Byte} {w : Word} {rest : List Event} (h : s.agenda = .rx f w :: rest)
    (hawake : pwrsv s.dev.regs = false) : (stepState s).dev = rxArrive s.cfg s.draws f w s.dev := by
  rw [stepState_rx h, onDevice_dev_awake]
  exact hawake

theorem stepState_rx_blk {s : State} {f : List Byte} {w : Word} {rest : List Event} (h : s.agenda = .rx f w :: rest) :
    (stepState s).blk = s.blk := by
  rw [stepState_rx h, onDevice_blk]

/-- The machine after the event of a frame that is deposited: the deposit is all it does to the device (R142). -/
theorem stepState_rx_deposits {s : State} {f : List Byte} {w : Word} {rest : List Event}
    (h : s.agenda = .rx f w :: rest) (he : rxen s.dev.regs = true) (hawake : pwrsv s.dev.regs = false)
    (h1 : 1 ≤ f.length) (h2 : f.length ≤ 0xFFFF) (hin : (ringOf s.dev.regs).contains s.dev.regs.erxwrpt.toNat = true)
    (hfit : rxNeed s.cfg.rxOdd f.length < rxFree s.dev.regs) (hcount : s.dev.regs.epktcnt ≠ 255) :
    stepState s = { s with agenda := rest, dev := rxDeposit s.cfg f w s.dev, draws := s.draws + 1 } := by
  have hworks : State.dozing { s with agenda := rest } = false := dozing_awake hawake
  rw [stepState_rx h, onDevice, hworks, if_neg Bool.false_ne_true, rxArrive_deposits he h1 h2 hin hfit hcount]

/-- Settles O52: with RXEN clear the RX engine's move leaves the device. -/
theorem nothingArrivesWhileDisabled : Obligations.NothingArrivesWhileDisabled := by
  intro s f w rest hagenda hdisabled
  refine ⟨_, step_eq s, stepState_rx_blk hagenda, fun hawake => ?_⟩
  rw [stepState_rx_dev hagenda hawake, rxArrive_disabled hdisabled]

/-- Settles O53: a full counter or too little room is the condition of a drop. -/
theorem overrunDropsTheFrame : Obligations.OverrunDropsTheFrame := by
  intro s f w rest hagenda henabled hawake h1 h2 hfull
  refine ⟨_, step_eq s, ?_, stepState_rx_blk hagenda⟩
  have hdrop : s.dev.regs.epktcnt = 255 ∨ rxFits s.cfg s.draws f.length s.dev.regs = false := by
    refine hfull.imp_right fun ⟨hknown, hfree⟩ => ?_
    rw [rxFits, if_pos (hknown.symm.imp_right ringOf_contains)]
    simpa using hfree
  rw [stepState_rx_dev hagenda hawake, rxArrive_enabled henabled h1 h2, if_pos hdrop]
  rfl

/-! ### What a deposit stores (R142, R143) -/

/-- The bytes a frame's deposit puts in the ring: its header, with the next-packet pointer of R143, and the frame. -/
def depositedPacket (c : Config) (f : List Byte) (w : Word) (r : DevRegs) : List Byte :=
  rxHeader (BitVec.ofNat 16 (place c.rxOdd (ringOf r) r.erxwrpt.toNat f.length).nextPacket) (BitVec.ofNat 16 f.length) w ++ f

section

variable {c : Config} {f : List Byte} {w : Word} {d : Device}

theorem depositedPacket_length : (depositedPacket c f w d.regs).length = 6 + f.length := by
  rw [depositedPacket, List.length_append]
  rfl

theorem rxDeposit_mem : (rxDeposit c f w d).mem =
    writeRing (ringOf d.regs) d.regs.erxwrpt.toNat (depositedPacket c f w d.regs) 0 d.mem := rfl

/-- A frame that fits takes no more than the ring with its header, so the k-th byte stands k places on. -/
theorem rxDeposit_read (hin : (ringOf d.regs).contains d.regs.erxwrpt.toNat = true)
    (hfit : rxNeed c.rxOdd f.length < rxFree d.regs) {k : Nat} (hk : k < 6 + f.length) :
    Memory.read (rxDeposit c f w d).mem ((ringOf d.regs).add d.regs.erxwrpt.toNat k) =
      (depositedPacket c f w d.regs)[k]? := by
  have hsize := rxFree_le_size d.regs
  have hneed := le_rxNeed c.rxOdd f.length
  have hread := writeRing_get hin (depositedPacket c f w d.regs) 0 d.mem
    (by rw [depositedPacket_length]; omega) (k := k) (by rwa [depositedPacket_length])
  rwa [Nat.zero_add, ← rxDeposit_mem] at hread

theorem rxDeposit_read_other {a : Nat}
    (h : ∀ k < 6 + f.length, (ringOf d.regs).add d.regs.erxwrpt.toNat k ≠ a) :
    Memory.read (rxDeposit c f w d).mem a = Memory.read d.mem a := by
  rw [rxDeposit_mem, writeRing_other]
  intro k hk
  rw [Nat.zero_add]
  exact h k (depositedPacket_length (w := w) ▸ hk)

/-- ERXWRPT stays inside the ring, so the register holds the place in full (R31, R63). -/
theorem rxDeposit_erxwrpt (hin : (ringOf d.regs).contains d.regs.erxwrpt.toNat = true) :
    (rxDeposit c f w d).regs.erxwrpt.toNat =
      (place c.rxOdd (ringOf d.regs) d.regs.erxwrpt.toNat f.length).writePtr := by
  refine Nat.mod_eq_of_lt ?_
  rw [place_writePtr]
  exact ringOf_add_lt hin _ _

end

/-- Settles O57: ERXWRPT goes on by the bytes the frame takes, which are fewer than the distance to ERXRDPT. -/
theorem depositNeverCatchesTheReadPointer : Obligations.DepositNeverCatchesTheReadPointer := by
  intro c d f w n henabled h1 h2 hfirst hlast _ _ hfit hcount hcaught
  have hin := ringOf_contains ⟨hfirst, hlast⟩
  have hsize := rxFree_le_size d.regs
  have hneed := le_rxNeed c.rxOdd f.length
  have hdist := Ring.dist_add hin (k := rxNeed c.rxOdd f.length) (by omega)
  rw [rxArrive_deposits henabled h1 h2 hin hfit hcount] at hcaught
  rw [← place_writePtr, ← rxDeposit_erxwrpt (w := w) hin, hcaught] at hdist
  unfold rxFree at hfit
  split at hfit
  next hempty =>
    rw [hempty, Ring.dist_self] at hdist
    omega
  next => omega

/-- Settles O54: inside the ring the frame is deposited, outside it is dropped or counted. -/
theorem depositStaysInTheRing : Obligations.DepositStaysInTheRing := by
  refine ⟨fun s f w rest hagenda henabled hawake h1 h2 hfirst hlast hfit hcount => ?_,
    fun s f w rest hagenda henabled hawake h1 h2 hout => ⟨_, step_eq s, stepState_rx_blk hagenda, ?_⟩⟩
  · have hin := ringOf_contains ⟨hfirst, hlast⟩
    have hring : (ringOf s.dev.regs).first ≤ (ringOf s.dev.regs).last := hfirst.trans hlast
    have hwrite := rxDeposit_erxwrpt (c := s.cfg) (f := f) (w := w) hin
    have hplace := Ring.add_le hring s.dev.regs.erxwrpt.toNat (rxNeed s.cfg.rxOdd f.length)
    rw [← place_writePtr, ← hwrite] at hplace
    refine ⟨_, step_eq s, ?_⟩
    rw [stepState_rx_deposits hagenda henabled hawake h1 h2 hin hfit hcount]
    refine ⟨rfl, fun k hk => rxDeposit_read hin hfit hk, fun a ha => rxDeposit_read_other ha, Ring.add_le hring _, hwrite,
      hplace.1, hplace.2, fun hmodel => ?_, fun hmodel => ?_, pktif_deposited hcount _, rfl⟩
    · simp only [rxDeposit, eirDeposited, hmodel]
    · simp only [rxDeposit, eirDeposited, hmodel]
      rfl
  · rw [stepState_rx_dev hagenda hawake]
    have hcfg : (stepState s).cfg = s.cfg := by rw [stepState_rx hagenda, onDevice_cfg]
    rw [hcfg]
    rcases rxArrive_outside (c := s.cfg) (n := s.draws) (w := w) henabled h1 h2
      (fun hin => hout (Ring.contains_iff.1 hin)) with hdrop | ⟨hcount, hdeposit⟩
    · rw [hdrop]
      exact .inl rfl
    · rw [hdeposit]
      refine .inr ⟨hcount, pktif_deposited hcount _, ?_⟩
      simp only [rxDepositOutside, eirDeposited]
      cases s.cfg.pktif <;> rfl

/-- Settles O55: ERDPT goes round the same ring the packet was stored in, so the stream read is the packet. -/
theorem depositedPacketIsReadBack : Obligations.DepositedPacketIsReadBack := by
  intro s f w fill hready henabled h1 h2 hfirst hlast hfit hcount herdpt hauto hfill
  have hin := ringOf_contains ⟨hfirst, hlast⟩
  have ⟨_, _, hawake⟩ := hready
  have hdeposit := stepState_rx_deposits (s := { s with agenda := [.rx f w] }) rfl henabled hawake h1 h2 hin hfit
    hcount
  have hpacket : fill.length = (depositedPacket s.cfg f w s.dev.regs).length := by rw [hfill, depositedPacket_length]
  have hready' : (stepState { s with agenda := [.rx f w] }).BusReady := by
    rw [hdeposit]
    exact hready
  refine ⟨_, _, step_eq _, exec_eq _ _, Config.freeByte (stepState { s with agenda := [.rx f w] }).draws, ?_⟩
  rw [execState_rbm_rx hready', hdeposit, hpacket]
  refine congrArg (_ :: ·) (readBuffer_data_eq _ fun k hk => ?_)
  have hadvance : advanceRead (rxDeposit s.cfg f w s.dev).regs = advanceRead s.dev.regs := rfl
  have hstart : (rxDeposit s.cfg f w s.dev).regs.erdpt = s.dev.regs.erxwrpt := herdpt
  rw [hadvance, hstart, advanceRead_iterate_toNat hauto hin]
  exact rxDeposit_read hin hfit (depositedPacket_length (w := w) ▸ hk)

end Sys2Proof.Machine
end

section
/-! ## The steps of receivePacket (R125 to R138) -/

namespace Sys2Proof.Machine

/-! ### What writes the latches, the caller's buffer and the out-parameter -/

/-- Between two states the latches, the out-parameter and the caller's buffer are unchanged (R21 to R23, R27, R126). -/
structure SameLatches (s t : State) : Prop where
  npp : t.blk.npp = s.blk.npp
  flen : t.blk.flen = s.blk.flen
  rsv : t.blk.rsv = s.blk.rsv
  nppOut : t.blk.nppOut = s.blk.nppOut
  buf : t.blk.buf = s.blk.buf

theorem SameLatches.trans {s t u : State} (h : SameLatches s t) (h' : SameLatches t u) : SameLatches s u :=
  ⟨h'.npp.trans h.npp, h'.flen.trans h.flen, h'.rsv.trans h.rsv, h'.nppOut.trans h.nppOut, h'.buf.trans h.buf⟩

theorem endFrame_latches (tx : List Byte) (out : DevOut) (s : State) : SameLatches s (endFrame tx out s) :=
  ⟨rfl, rfl, rfl, rfl, rfl⟩

theorem advance_latches (o : Op) (v : Value) (s : State) : SameLatches s (advance o v s) :=
  ⟨advance_npp .., advance_flen .., advance_rsv .., advance_nppOut .., advance_buf ..⟩

theorem pollAgain_latches (o : Op) (id : Byte) (s : State) : SameLatches s (pollAgain o id s) :=
  ⟨pollAgain_npp .., pollAgain_flen .., pollAgain_rsv .., pollAgain_nppOut .., pollAgain_buf ..⟩

/-- Only steps 4 and 5 of receivePacket put a response in the latches or the buffer (R130, R131). -/
theorem consume_latches {a : Act} (hheader : a ≠ .header) (hbody : a ≠ .body) (o : Op) (s : State) :
    SameLatches s (consume o a s) := by
  cases a with
  | header => exact absurd rfl hheader
  | body => exact absurd rfl hbody
  | poll id mask cond =>
    rw [consume]
    split
    · exact advance_latches ..
    · exact pollAgain_latches ..
  | read a dummy sink =>
    cases sink with
    | result => exact advance_latches ..
    | pairLow => exact SameLatches.trans (t := latchLow s) ⟨rfl, rfl, rfl, rfl, rfl⟩ (advance_latches ..)
    | pairHigh => exact advance_latches ..
  | settle => exact SameLatches.trans (t := settle s) ⟨rfl, rfl, rfl, rfl, rfl⟩ (advance_latches ..)
  | send | readBytes | writeNpp => exact advance_latches ..

section

variable {s t : State} {o : Op} {k : Nat} {txs : List (List Byte)} {d : Device} {p : PhySt} {r : RxSt} {starts : Bool}
  {id : Byte} {a : Act}

theorem goto_rxst {m : Micro} (hm : (expansion s.cfg o)[k]? = some m) (e : Bool) : (goto o k e s).blk.rxst = m.rxst := by
  simp only [goto, hm]

theorem State.Stands.stepState_latches (h : s.Stands o k) (hawake : pwrsv s.dev.regs = false) {m : Micro} {i : Instr}
    (hm : (expansion s.cfg o)[k]? = some m) (hi : actInstr s m.act = some i) (hsrc : i ≠ .src)
    (hheader : m.act ≠ .header) (hbody : m.act ≠ .body) : SameLatches s (stepState s) := by
  rw [h.stepState_of_micro hawake hm hi hsrc]
  exact (endFrame_latches ..).trans (consume_latches hheader hbody ..)

/-- As `CleanFrom.send`, with a busy-wait perhaps to follow, and the state of the receive controller (R24, R125). -/
theorem CleanFrom.send_next (h : CleanFrom s o k txs d t) (hawake : pwrsv d.regs = false) {m m' : Micro} {i : Instr}
    (hm : (expansion s.cfg o)[k]? = some m) (hact : m.act = .send i) (hsrc : i ≠ .src)
    (hm' : (expansion s.cfg o)[k + 1]? = some m') (hclean : (outOf i t).faults = []) :
    CleanFrom s o (k + 1) (txs ++ [encode i]) (outOf i t).dev (stepState t) ∧ (stepState t).blk.rxst = m'.rxst ∧
      (stepState t).blk.pollcnt = if m'.pollStart then 0 else t.blk.pollcnt := by
  have hsent := h.after_frame (encode i) hclean
  rw [← h.cfg] at hm hm'
  have hstep : stepState t = goto o (k + 1) true (endFrame (encode i) (outOf i t) t) := by
    rw [h.stands.stepState_of_micro (by rw [h.dev]; exact hawake) hm (by rw [hact]; rfl) hsrc, hact]
    exact hsent.stands.advance_next (List.getElem?_eq_some_iff.1 hm').1 .unit
  rw [hstep]
  refine ⟨hsent.after_goto (k + 1) true, goto_rxst (s := endFrame (encode i) (outOf i t) t) hm' true, ?_⟩
  simpa using (goto_entering (s := endFrame (encode i) (outOf i t) t) hm' true).1

/-- The bank-switch sequence before an access leaves the latches and the buffer (R107). -/
theorem CleanFrom.bankSwitch_latches (h : CleanFrom s o k txs d t) (hawake : pwrsv d.regs = false)
    (heth : ∀ b, devMacmii s.cfg b 0x1F = false) (hsteps : accessSteps p r starts id a <+: (expansion s.cfg o).drop k) :
    SameLatches t (runState 2 t) := by
  obtain ⟨rest, hsteps⟩ := hsteps
  have hmicro := getElem?_of_drop hsteps.symm
  obtain ⟨h₁, -⟩ := h.send (i := .bfc 0x1F bselMask) hawake (hmicro 0) rfl (by simp) (hmicro 1) rfl
    (outOf_bfc_econ1_faults (h.cfg ▸ heth _) _)
  rw [outOf_bfc_econ1_dev (h.cfg ▸ heth _), h.dev] at h₁
  have hclear := h.stands.stepState_latches (by rw [h.dev]; exact hawake) (h.cfg ▸ hmicro 0) rfl (by simp)
    (by nofun) (by nofun)
  have hset := h₁.stands.stepState_latches (by rw [h₁.dev]; exact hawake) (h₁.cfg ▸ hmicro 1) rfl (by simp)
    (by nofun) (by nofun)
  exact hclear.trans hset

/-- So does an access, but for a read of buffer memory. -/
theorem CleanFrom.access_latches (h : CleanFrom s o k txs d t) (hawake : pwrsv d.regs = false)
    (heth : ∀ b, devMacmii s.cfg b 0x1F = false) (hsteps : accessSteps p r starts id a <+: (expansion s.cfg o).drop k)
    {i : Instr} (hi : ∀ u, actInstr u a = some i) (hsrc : i ≠ .src) (hheader : a ≠ .header) (hbody : a ≠ .body) :
    SameLatches t (runState 3 t) := by
  obtain ⟨h', -⟩ := h.bankSwitch hawake heth hsteps
  have hswitch := h.bankSwitch_latches hawake heth hsteps
  obtain ⟨rest, hsteps⟩ := hsteps
  have hm := getElem?_of_drop hsteps.symm 2
  exact hswitch.trans (h'.stands.stepState_latches (by rw [h'.dev]; exact hawake) (h'.cfg ▸ hm) (hi _) hsrc hheader hbody)

/-- Polls of a busy-wait, the one that reaches the limit too, leave the latches and the buffer (R115, R136). -/
theorem CleanFrom.polls_latches {mask : Byte} {cond : Until} (h : CleanFrom s o k txs d t) (hawake : pwrsv d.regs = false)
    (heth : ∀ b, devMacmii s.cfg b 0x1F = false)
    (hsteps : accessSteps p r true id (.poll id mask cond) <+: (expansion s.cfg o).drop k)
    (hclass : devMacmii s.cfg (idBank id) (idAddr id) = idMac id)
    (hunmet : ∀ free, pollMet cond (readAt s.cfg free id d) mask = false) (n : Nat)
    (hbelow : limitReached s.cfg (t.blk.pollcnt + n) = false) : SameLatches t (runState (3 * (n + 1)) t) := by
  induction n with
  | zero => exact h.access_latches hawake heth hsteps (fun _ => rfl) (by simp) nofun nofun
  | succ n ih =>
    obtain ⟨hn, -⟩ := h.polls_unmet hawake heth hsteps hclass hunmet (n + 1) hbelow
    have hlast := hn.access_latches ((pwrsv_afterPolls ..).trans hawake) heth hsteps (fun _ => rfl) (by simp) nofun nofun
    rw [← runState_add] at hlast
    exact (ih (limitReached_mono hbelow (by omega))).trans hlast

end

/-! ### Steps 1 to 3: reception on, the wait, reception off (R127 to R129) -/

section

variable {c : Config} (hmap : DefaultMap c)

include hmap

/-- The steps of receivePacket, one state of the receive controller after the other (R125, R126). -/
theorem expansion_receivePacket : expansion c .receivePacket =
    { act := .send (.bfs 0x1F rxenMask), rxst := .enable } ::
    (accessSteps .idle .waitPkt true 0x1C (.poll 0x1C pktifMask .set) ++
    ([{ act := .send (.bfc 0x1F rxenMask), rxst := .disable }, { act := .header, rxst := .header },
      { act := .body, rxst := .body }] ++
    (accessSteps .idle .wbRdpt false 0x0C (.writeNpp (idAddr 0x0C) .low) ++
    (accessSteps .idle .wbRdpt false (0x0C + 1) (.writeNpp (idAddr (0x0C + 1)) .high) ++
    (accessSteps .idle .wbErdpt false 0x00 (.writeNpp (idAddr 0x00) .low) ++
    accessSteps .idle .wbErdpt false (0x00 + 1) (.writeNpp (idAddr (0x00 + 1)) .high)))))) := by
  obtain ⟨hregmap, -, -⟩ := hmap
  rw [expansion, hregmap]
  rfl

/-- Where the wait for a packet stands in it (R128). -/
theorem receivePacket_poll : accessSteps .idle .waitPkt true 0x1C (.poll 0x1C pktifMask .set) <+:
    (expansion c .receivePacket).drop 1 := by
  rw [expansion_receivePacket hmap]
  exact ⟨_, rfl⟩

end

/-- The wait for a packet ends on PKTIF, which EIR reads in bit 6 (R42, R128, R144). -/
theorem pollMet_pktif (c : Config) (free : Byte) (d : Device) :
    pollMet .set (readAt c free 0x1C d) pktifMask = pktif c d.regs := by
  have hbit : ∀ (x : Byte) (b : Bool),
      (((x &&& 0x3B) ||| if b then pktifMask else 0) &&& pktifMask != 0) = b := by decide
  have hread : readAt c free 0x1C d = eirValue c d.regs := devRead_eir c _ free
  rw [hread]
  exact hbit d.regs.eir (pktif c d.regs)

/-- Bank switching leaves RXEN (R39, R107). -/
theorem rxen_selectBank (b : Bank) (d : Device) : rxen (selectBank b d).regs = rxen d.regs := by
  have hbits : ∀ (x : Byte) (b : Bank), ((x &&& ~~~bselMask) ||| b.setWidth 8).getLsbD 2 = x.getLsbD 2 := by decide
  exact hbits _ b

theorem rxen_afterPolls (b : Bank) (n : Nat) (d : Device) : rxen (afterPolls b n d).regs = rxen d.regs := by
  cases n with
  | zero => rfl
  | succ n => exact rxen_selectBank b d

/-- Selecting bank 0 clears both bank-select bits (R107). -/
theorem selectBank_zero (d : Device) :
    selectBank 0 d = { d with regs := { d.regs with econ1 := d.regs.econ1 &&& ~~~0x03 } } := by
  have hbits : (d.regs.econ1 &&& ~~~bselMask) ||| (0 : Bank).setWidth 8 = d.regs.econ1 &&& ~~~0x03 := BitVec.or_zero
  rw [selectBank, hbits]

/-- A quiet machine whose block stands at a step. -/
theorem State.Quiet.stands {s : State} {o : Op} {k : Nat} (h : s.Quiet) (hop : s.blk.op = some o)
    (hstep : s.blk.step = k) : s.Stands o k := by
  obtain ⟨hidle, hbus, hsettled, -⟩ := h
  exact ⟨hidle, hbus, hsettled, hop, hstep⟩

/-- Settles O47: steps 1 and 3 are one frame each, which writes RXEN; between them a poll ends the wait, or of n unmet
polls the last reaches the limit. -/
theorem receiveTimesOut : Obligations.ReceiveTimesOut := by
  refine ⟨fun s hquiet hmap hop hstep => ?_, fun s hquiet hmap hop hstep => ?_,
    fun s hquiet hmap hop hstep hflag => ?_, fun s n hquiet hmap hop hstep hcount hflag hlimit hn => ?_⟩
  · have ⟨_, _, _, hawake⟩ := hquiet
    have hexp := expansion_receivePacket hmap
    obtain ⟨h, hrxst, hpollcnt⟩ := (hquiet.stands hop hstep).cleanFrom.send_next (i := .bfs 0x1F rxenMask) hawake
      (by rw [hexp]; rfl) rfl (by simp) (by rw [hexp]; rfl) (outOf_bfs_econ1_faults (econ1_eth hmap _) _)
    rw [outOf_bfs_econ1_dev (econ1_eth hmap _)] at h
    have hset : ∀ x : Byte, (x ||| rxenMask).getLsbD 2 = true := by decide
    refine ⟨_, step_eq s, h.stands.op, h.stands.step, hrxst, hpollcnt, ?_, h.faults, h.dev, h.log⟩
    rw [h.dev]
    exact hset _
  · have ⟨_, _, _, hawake⟩ := hquiet
    have hexp := expansion_receivePacket hmap
    obtain ⟨h, hrxst, -⟩ := (hquiet.stands hop hstep).cleanFrom.send_next (i := .bfc 0x1F rxenMask) hawake
      (by rw [hexp]; rfl) rfl (by simp) (by rw [hexp]; rfl) (outOf_bfc_econ1_faults (econ1_eth hmap _) _)
    rw [outOf_bfc_econ1_dev (econ1_eth hmap _)] at h
    have hclear : ∀ x : Byte, (x &&& ~~~rxenMask).getLsbD 2 = false := by decide
    refine ⟨_, step_eq s, h.stands.op, h.stands.step, hrxst, ?_, h.faults, h.dev, h.log⟩
    rw [h.dev]
    exact hclear _
  · have ⟨_, _, _, hawake⟩ := hquiet
    obtain ⟨u, hu, -, hrun⟩ := (hquiet.stands hop hstep).cleanFrom.poll_met hawake (econ1_eth hmap)
      (receivePacket_poll hmap) (devMacmii_default hmap _ _) fun free => (pollMet_pktif ..).trans hflag
    have hnext : (expansion u.cfg .receivePacket)[4]? =
        some { act := .send (.bfc 0x1F rxenMask), rxst := .disable } := by
      rw [hu.cfg, expansion_receivePacket hmap]
      rfl
    have h := hu.after_goto 4 true
    refine ⟨_, run_eq 3 s, ?_⟩
    rw [hrun, hu.stands.advance_next (List.getElem?_eq_some_iff.1 hnext).1]
    refine ⟨h.stands.op, h.stands.step, goto_rxst hnext true, ?_, h.faults, h.dev.trans (selectBank_zero s.dev), h.log⟩
    rw [h.cfg, h.dev]
    exact hflag
  · have ⟨_, _, _, hawake⟩ := hquiet
    have hstands := (hquiet.stands hop hstep).cleanFrom
    have hunmet := fun free => (pollMet_pktif s.cfg free s.dev).trans hflag
    obtain ⟨m, rfl⟩ := Nat.exists_eq_add_of_le' hn
    have hbelow : limitReached s.cfg (s.blk.pollcnt + m) = false := by simp [limitReached, hlimit, hcount]
    obtain ⟨u, hu, hrun⟩ := hstands.polls_timeout hawake (econ1_eth hmap) (receivePacket_poll hmap)
      (devMacmii_default hmap _ _) hunmet hbelow (by simp [limitReached, hlimit, hcount])
    obtain ⟨hnpp, hflen, hrsv, hnppOut, hbuf⟩ := hstands.polls_latches hawake (econ1_eth hmap) (receivePacket_poll hmap)
      (devMacmii_default hmap _ _) hunmet m hbelow
    refine ⟨_, run_eq _ s, ?_⟩
    rw [hrun] at hnpp hflen hrsv hnppOut hbuf ⊢
    refine ⟨rfl, rfl, rfl, ?_, hnpp, hflen, hrsv, hnppOut, hbuf, ?_⟩
    · exact (congrArg (fun d => rxen d.regs) hu.dev).trans (rxen_afterPolls ..)
    · refine hu.log_length.trans ?_
      simp [readFrames, switchFrames]
      omega

end Sys2Proof.Machine
end

section
/-! ## Receiving: the header, the body, and the pointer written back (R130 to R138) -/

namespace Sys2Proof.Machine

/-! ### Steps 4 and 5: the header and the body (R130, R131, R135) -/

/-- The data bytes of an RBM's response are the stream from ERDPT on (R74, R95). -/
theorem responseData_rbm (fill tx : List Byte) (s : State) : responseData (endFrame tx (outOf (.rbm fill) s) s) =
    (readBuffer s.dev.regs s.dev.mem fill.length s.dev.regs.erdpt (s.draws + 1)).data := rfl

theorem outOf_rbm_erdpt (fill : List Byte) (s : State) :
    (outOf (.rbm fill) s).dev.regs.erdpt = (advanceRead s.dev.regs)^[fill.length] s.dev.regs.erdpt :=
  readBuffer_ptr ..

@[simp] theorem fillers_length (n : Nat) : (fillers n).length = n := List.length_replicate

theorem overlay_get_of_lt {buf bs : List Byte} {k : Nat} (hbuf : k < buf.length) (hbs : k < bs.length) :
    (overlay buf bs)[k]? = bs[k]? := by
  rw [overlay_get _ _ _ hbuf, if_pos hbs]

/-- Past the bytes stored the buffer is as it was. -/
theorem overlay_get_of_le {buf bs : List Byte} {k : Nat} (hbs : bs.length ≤ k) : (overlay buf bs)[k]? = buf[k]? := by
  by_cases hbuf : k < buf.length
  · rw [overlay_get _ _ _ hbuf, if_neg (by omega)]
  · rw [List.getElem?_eq_none (by rw [overlay_length]; omega), List.getElem?_eq_none (by omega)]

/-- Step 5 puts the response in the buffer (R131). -/
def fillBuffer (bs : List Byte) (s : State) : State := { s with blk := { s.blk with buf := overlay s.blk.buf bs } }

theorem State.Stands.latchHeader {s : State} {o : Op} {k : Nat} (h : s.Stands o k) (bs : List Byte) :
    (latchHeader bs s).Stands o k :=
  ⟨h.idle, h.bus, h.settled, h.op, h.step⟩

theorem State.Stands.fillBuffer {s : State} {o : Op} {k : Nat} (h : s.Stands o k) (bs : List Byte) :
    (fillBuffer bs s).Stands o k :=
  ⟨h.idle, h.bus, h.settled, h.op, h.step⟩

theorem consume_header (o : Op) (s : State) :
    consume o .header s = advance o .unit (latchHeader (responseData s) s) := rfl

theorem consume_body (o : Op) (s : State) : consume o .body s = advance o .unit (fillBuffer (responseData s) s) := rfl

section

variable {s : State} (hquiet : s.Quiet) (hop : s.blk.op = some .receivePacket)

include hquiet hop

/-- Step 4 reads six bytes and latches them (R130). -/
theorem stepState_header (hstep : s.blk.step = 5) {h : Vector Byte 6}
    (hbytes : ∀ k : Fin 6, Memory.read s.dev.mem ((advanceRead s.dev.regs)^[k.val] s.dev.regs.erdpt).toNat = some h[k]) :
    stepState s = goto .receivePacket 6 true (latchHeader h.toList
      (endFrame (encode (.rbm (fillers 6))) (outOf (.rbm (fillers 6)) s) s)) := by
  have ⟨_, _, _, hawake⟩ := hquiet
  have hstands := hquiet.stands hop hstep
  have hlength : h.toList.length = 6 := Vector.length_toList
  have hdata := readBuffer_data_eq (r := s.dev.regs) (m := s.dev.mem) (p := s.dev.regs.erdpt) (bs := h.toList)
    (s.draws + 1) fun k hk => by
      rw [hlength] at hk
      simpa [hk] using hbytes ⟨k, hk⟩
  rw [hlength] at hdata
  rw [hstands.stepState_of_micro (m := { act := .header, rxst := .header }) (i := .rbm (fillers 6)) hawake rfl rfl
    (by simp), consume_header, responseData_rbm, fillers_length, hdata]
  exact ((hstands.sentFrom.after_frame _ _).stands.latchHeader _).advance_next (by decide : 6 < 19) .unit

/-- Step 5 reads x[FLEN] bytes into the buffer (R131). -/
theorem stepState_body (hstep : s.blk.step = 6) (hfit : s.blk.flen.toNat ≤ s.cfg.bufCap) :
    stepState s = goto .receivePacket 7 true (fillBuffer
      (readBuffer s.dev.regs s.dev.mem s.blk.flen.toNat s.dev.regs.erdpt (s.draws + 1)).data
      (endFrame (encode (.rbm (fillers s.blk.flen.toNat))) (outOf (.rbm (fillers s.blk.flen.toNat)) s) s)) := by
  have ⟨_, _, _, hawake⟩ := hquiet
  have hstands := hquiet.stands hop hstep
  rw [hstands.stepState_of_micro (m := { act := .body, rxst := .body }) hawake rfl (if_pos hfit)
    (by simp), consume_body, responseData_rbm, fillers_length]
  exact ((hstands.sentFrom.after_frame _ _).stands.fillBuffer _).advance_next (by decide : 7 < 19) .unit

end

/-- Settles O49: steps 4 and 5 each read the stream from ERDPT on, and store it over the front of the buffer. -/
theorem bodyOverwritesTheBuffer : Obligations.BodyOverwritesTheBuffer := by
  refine ⟨fun s h hquiet hop hstep hbytes => ⟨_, step_eq s, ?_⟩,
    fun s hquiet hop hstep hbuf hfit => ⟨_, step_eq s, ?_⟩⟩
  · rw [stepState_header hquiet hop hstep hbytes]
    have hlength : h.toList.length = 6 := Vector.length_toList
    refine ⟨goto_step .., goto_rxst (m := { act := .body, rxst := .body }) rfl true, ?_, ?_, ?_, ?_, ?_, fun k hk => ?_,
      fun k hk => ?_⟩
    · simp [le16_toNat]
    · simp [le16_toNat]
    · simp [le16_toNat]
    · simp
    · rw [goto_dev, latchHeader_dev, endFrame_dev, outOf_rbm_erdpt, fillers_length]
    · rw [goto_buf, latchHeader_buf, endFrame_buf, overlay_get_of_lt hk (by rw [hlength]; exact k.isLt)]
      simp
    · rw [goto_buf, latchHeader_buf, endFrame_buf, overlay_get_of_le (by rwa [hlength])]
  · rw [stepState_body hquiet hop hstep hfit]
    have hnext : (expansion s.cfg .receivePacket)[7]? =
        some { act := .send (.bfc (idAddr s.cfg.regmap.econ1) bselMask), rxst := .wbRdpt } := rfl
    refine ⟨goto_step .., goto_rxst hnext true, ?_, fun k hk b hb => ?_, fun k hk => ?_, ?_⟩
    · rw [goto_dev]
      exact (outOf_rbm_erdpt ..).trans (by rw [fillers_length])
    · rw [goto_buf]
      refine (overlay_get_of_lt (by rw [endFrame_buf]; omega) (by rwa [readBuffer_length])).trans ?_
      rw [readBuffer_get _ _ _ _ _ _ hk, memRead_of_read hb]
    · rw [goto_buf]
      exact overlay_get_of_le (by rwa [readBuffer_length])
    · rw [goto_buf]
      exact overlay_length ..

/-- Settles O50: a body that does not fit has no frame to send, and the move without one is the overflow. -/
theorem oversizedFrameEndsTheReceive : Obligations.OversizedFrameEndsTheReceive := by
  intro s hidle hop hstep hbig
  have hmicro : currentMicro s = some { act := .body, rxst := .body } := by
    rw [currentMicro, hop, hstep]
    rfl
  have hinstr : blockInstr s = none := by
    rw [blockInstr, hmicro]
    exact if_neg (by omega)
  have hoverflow : stepState s = rxOverflow s := by
    rw [stepState_idle hidle, blockState_of_blockInstr_none hinstr, blockQuiet, hop, hmicro]
  refine ⟨_, step_eq s, ?_⟩
  rw [hoverflow]
  exact ⟨mem_insertFault.2 (.inr rfl), rfl, rfl, rfl, rfl, rfl⟩

/-! ### Steps 6 and 7: the next-packet pointer written back (R132, R133) -/

/-- A pointer written byte by byte holds the value's low 13 bits (R31). -/
theorem withPtrHigh_withPtrLow (q : Ptr) (v : Word) :
    withPtrHigh (withPtrLow q (lo8 v)) (hi8 v) = v.setWidth 13 := by
  refine BitVec.eq_of_toNat_eq ?_
  rw [withPtrHigh_toNat, withPtrLow_toNat, lo8_toNat, hi8_toNat, BitVec.toNat_setWidth]
  omega

@[simp] theorem pwrsv_putPtr (r : DevRegs) (p : PtrName) (v : Ptr) : pwrsv (putPtr r p v) = pwrsv r := by
  cases p <;> rfl

theorem goto_latches (o : Op) (n : Nat) (e : Bool) (s : State) : SameLatches s (goto o n e s) :=
  ⟨goto_npp .., goto_flen .., goto_rsv .., goto_nppOut .., goto_buf ..⟩

/-- A write of a pointer leaves the others, but for ERXST's, which ERXWRPT follows (R91, R145). -/
theorem getPtr_putPtr_other {p q : PtrName} (hp : p ≠ .erxst) (hq : q ≠ p) (r : DevRegs) (v : Ptr) :
    getPtr (putPtr r p v) q = getPtr r q := by
  cases p with
  | erxst => exact absurd rfl hp
  | erxwrpt => rfl
  | erdpt | ewrpt | etxst | etxnd | erxnd | erxrdpt => cases q <;> simp [putPtr, getPtr] at hq ⊢

section

variable {s t : State} {o : Op} {k : Nat} {txs : List (List Byte)} {d : Device} {p : PhySt} {r : RxSt} {starts : Bool}
  {id : Byte} (h : CleanFrom s o k txs d t) (hawake : pwrsv d.regs = false)
  (heth : ∀ b, devMacmii s.cfg b 0x1F = false)

include h hawake heth

/-- One byte of x[NPP] written to a register, with no model fault (R132, R133). -/
theorem CleanFrom.writeNpp {half : Half} {d' : Device}
    (hsteps : accessSteps p r starts id (.writeNpp (idAddr id) half) <+: (expansion s.cfg o).drop k)
    (hwrite : ∀ n, devWrite s.cfg n (idAddr id) (halfOf t.blk.npp half) (selectBank (idBank id) d) = ⟨d', []⟩) :
    ∃ u, CleanFrom s o (k + 2) (txs ++ writeFrames id (halfOf t.blk.npp half)) d' u ∧ SameLatches t u ∧
      runState 3 t = advance o (.packet u.blk.flen u.blk.npp u.blk.rsv) u := by
  obtain ⟨h', -⟩ := h.bankSwitch hawake heth hsteps
  have hlatches := h.bankSwitch_latches hawake heth hsteps
  obtain ⟨rest, hsteps⟩ := hsteps
  have hm := getElem?_of_drop hsteps.symm 2
  have hi : actInstr (runState 2 t) (.writeNpp (idAddr id) half) = some (.wcr (idAddr id) (halfOf t.blk.npp half)) := by
    rw [actInstr, hlatches.npp]
  have hrun := h'.stands.stepState_of_micro (by rw [h'.dev]; exact hawake) (h'.cfg ▸ hm) hi (by simp)
  have hout : outOf (.wcr (idAddr id) (halfOf t.blk.npp half)) (runState 2 t) =
      ⟨d', [], anyResponse (encode (.wcr (idAddr id) (halfOf t.blk.npp half))) (runState 2 t)⟩ := by
    rw [outOf, h'.cfg, h'.dev, hwrite]
    rfl
  have hsent := h'.after_frame (encode (.wcr (idAddr id) (halfOf t.blk.npp half))) (congrArg DevOut.faults hout)
  rw [congrArg DevOut.dev hout, List.append_assoc] at hsent
  exact ⟨_, hsent, hlatches.trans (endFrame_latches ..), hrun⟩

/-- `WRPAIR id, x[NPP]` on a pointer pair: the pointer holds x[NPP]'s low 13 bits, the others are as they were, and so is
memory (R31, R132, R133). -/
theorem CleanFrom.writeNppPair {q : PtrName} (hq : q ≠ .erxst ∧ q ≠ .erxwrpt) (hlo : regOf id = .ptrLo q)
    (hhi : regOf (id + 1) = .ptrHi q)
    (hlow : accessSteps p r starts id (.writeNpp (idAddr id) .low) <+: (expansion s.cfg o).drop k)
    (hhigh : accessSteps p r starts (id + 1) (.writeNpp (idAddr (id + 1)) .high) <+: (expansion s.cfg o).drop (k + 3))
    (hmore : k + 3 < (expansion s.cfg o).length) :
    ∃ u d', CleanFrom s o (k + 5) (txs ++ writeFrames id (lo8 t.blk.npp) ++ writeFrames (id + 1) (hi8 t.blk.npp)) d' u ∧
      SameLatches t u ∧ runState 6 t = advance o (.packet u.blk.flen u.blk.npp u.blk.rsv) u ∧
      getPtr d'.regs q = t.blk.npp.setWidth 13 ∧ (∀ q', q' ≠ q → getPtr d'.regs q' = getPtr d.regs q') ∧
      d'.mem = d.mem ∧ pwrsv d'.regs = false := by
  obtain ⟨u, hu, hsame, hrun⟩ := h.writeNpp hawake heth hlow fun _ => devWrite_ptrLo (regAt_selectBank id d ▸ hlo)
  rw [hu.stands.advance_next (by rw [hu.cfg]; exact hmore)] at hrun
  have hmid := hu.after_goto (k + 3) true
  have hsame_mid := hsame.trans (goto_latches o (k + 3) true u)
  obtain ⟨w, hw, hsame', hrun'⟩ := hmid.writeNpp (half := .high)
    (by rw [pwrsv_putPtr, pwrsv_selectBank, hawake]) heth hhigh
    fun _ => devWrite_ptrHi (regAt_selectBank (id + 1) _ ▸ hhi)
  rw [hsame_mid.npp] at hw
  refine ⟨w, _, hw, hsame_mid.trans hsame', ?_, ?_, fun q' hq' => ?_, rfl, ?_⟩
  · rw [runState_add 3 3, hrun, hrun']
  · rw [getPtr_putPtr hq.2, getPtr_selectBank, getPtr_putPtr hq.2, getPtr_selectBank]
    exact withPtrHigh_withPtrLow _ _
  · rw [getPtr_putPtr_other hq.1 hq', getPtr_selectBank, getPtr_putPtr_other hq.1 hq', getPtr_selectBank]
  · rw [pwrsv_putPtr, pwrsv_selectBank, pwrsv_putPtr, pwrsv_selectBank, hawake]

end

/-- Settles O51: two pointer pairs are written with the latch, and the second leaves the first as it was. -/
theorem receiveWritesThePointerBack : Obligations.ReceiveWritesThePointerBack := by
  intro s hquiet hmap hop hstep
  have ⟨_, _, _, hawake⟩ := hquiet
  have hexp := expansion_receivePacket hmap
  obtain ⟨u, d, hu, hsame, hrun, herxrdpt, -, hmem, hawake'⟩ :=
    (hquiet.stands hop hstep).cleanFrom.writeNppPair (q := .erxrdpt) (id := 0x0C) hawake (econ1_eth hmap)
      ⟨nofun, nofun⟩ rfl rfl (by rw [hexp]; exact ⟨_, rfl⟩) (by rw [hexp]; exact ⟨_, rfl⟩)
      (by rw [hexp]; exact (by decide : 10 < 19))
  rw [hu.stands.advance_next (by rw [hu.cfg, hexp]; exact (by decide : 13 < 19))] at hrun
  have hsame_mid := hsame.trans (goto_latches .receivePacket 13 true u)
  obtain ⟨w, d', hw, hsame', hrun', herdpt, hothers, hmem', -⟩ :=
    (hu.after_goto 13 true).writeNppPair (q := .erdpt) (id := 0x00) hawake' (econ1_eth hmap)
      ⟨nofun, nofun⟩ rfl rfl (by rw [hexp]; exact ⟨_, rfl⟩) (by rw [hexp]; exact ⟨_, rfl⟩)
      (by rw [hexp]; exact (by decide : 16 < 19))
  obtain ⟨hnpp, hflen, hrsv, -, -⟩ := hsame_mid.trans hsame'
  rw [hw.stands.advance_last (by rw [hw.cfg, hexp]; rfl), hnpp, hflen, hrsv] at hrun'
  rw [hsame_mid.npp] at herdpt hw
  refine ⟨_, run_eq 12 s, ?_⟩
  rw [runState_add 6 6, hrun, hrun']
  simp only [finish_op, finish_err, finish_rxst, finish_dev, finish_ret, finish_npp, finish_log, hw.dev]
  refine ⟨trivial, trivial, trivial, ?_, herdpt, trivial, hnpp, hmem'.trans hmem, hw.log⟩
  exact (hothers .erxrdpt nofun).trans herxrdpt

end Sys2Proof.Machine
end

section
/-! ## Initialization: its steps, and the clock-ready wait (R34, R150, R152) -/

namespace Sys2Proof.Machine

/-! ### How many steps an access takes (R82 to R84, R115) -/

@[simp] theorem writeReg_length (g : RegMap) (id v : Byte) : (writeReg g id v).length = 3 := rfl

@[simp] theorem writePair_length (g : RegMap) (id : Byte) (v : Word) : (writePair g id v).length = 6 := rfl

@[simp] theorem pollFlag_length (g : RegMap) (id mask : Byte) (cond : Until) : (pollFlag g id mask cond).length = 3 := rfl

@[simp] theorem writePhySteps_length (g : RegMap) (p : Byte) (v : Word) : (writePhySteps g p v).length = 12 := rfl

/-- A table of writes takes three steps for each entry (R109, R152). -/
@[simp] theorem writeReg_flatMap_length (g : RegMap) (es : List (Byte × Byte)) :
    (es.flatMap fun e => writeReg g e.1 e.2).length = 3 * es.length := by
  simp [List.length_flatMap, Nat.mul_comm]

/-- Settles O60: each phase of the initialization is a number of accesses, and each access a fixed number of steps. -/
theorem initializeStepCount : Obligations.InitializeStepCount := by
  intro c i
  have hmac : (i.macAddrId.toList.zip i.localMac.toList).length = 6 := by simp
  simp only [expansion, initSteps, List.length_append, writePair_length, writeReg_length, pollFlag_length,
    writeReg_flatMap_length, writePhySteps_length, hmac]

/-! ### The clock-ready wait (R150) -/

/-- Bit 0 of ESTAT reads CLKRDY, in whichever bank (R41, R90). -/
theorem pollMet_clkrdy (c : Config) (free : Byte) (d : Device) :
    pollMet .set (devRead c d 0x1D free) clkrdyMask = d.clkrdy := by
  have hbit : ∀ (x : Byte) (b : Bool), (estatValue b x &&& clkrdyMask != 0) = b := by decide
  rw [devRead_estat]
  exact hbit free d.clkrdy

/-- ESTAT is of the ETH class in every bank (R37). -/
theorem estat_eth {c : Config} (hmap : DefaultMap c) (b : Bank) : devMacmii c b 0x1D = false := by
  rw [devMacmii_default hmap]
  revert b
  decide

/-- Where the clock-ready wait stands in the steps of the initialization (R150, R152). -/
theorem init_poll {c : Config} (hmap : DefaultMap c) (i : InitCfg) :
    accessSteps .idle .idle true 0x1D (.poll 0x1D clkrdyMask .set) <+: (expansion c (.init i)).drop 21 := by
  obtain ⟨hregmap, -, -⟩ := hmap
  rw [expansion, hregmap, initSteps]
  simp only [List.append_assoc]
  exact ⟨_, rfl⟩

/-- The initialization stands at a step, with the device out of power save and CLKRDY as given. -/
structure InitStands (c : Config) (i : InitCfg) (k : Nat) (ready : Bool) (t : State) : Prop where
  stands : t.Stands (.init i) k
  cfg : t.cfg = c
  awake : pwrsv t.dev.regs = false
  clkrdy : t.dev.clkrdy = ready

section

variable {c : Config} {i : InitCfg} {k : Nat} {ready : Bool} {t : State} (h : InitStands c i k ready t)

include h

/-- An engine's step between two frames leaves the block at its step (R64). -/
theorem InitStands.onDevice {f : Device → Device} (hawake : pwrsv (f t.dev).regs = pwrsv t.dev.regs) :
    InitStands c i k (f t.dev).clkrdy (onDevice f t) where
  stands := ⟨h.stands.idle, h.stands.bus, h.stands.settled, h.stands.op, h.stands.step⟩
  cfg := h.cfg
  awake := by rw [onDevice_dev_awake h.awake, hawake, h.awake]
  clkrdy := by rw [onDevice_dev_awake h.awake]

theorem InitStands.after_goto (n : Nat) (e : Bool) : InitStands c i n ready (goto (.init i) n e t) where
  stands := (h.stands.sentFrom.after_goto n e).stands
  cfg := by rw [goto_cfg, h.cfg]
  awake := by rw [goto_dev, h.awake]
  clkrdy := by rw [goto_dev, h.clkrdy]

theorem InitStands.after_count : InitStands c i k ready (countPoll t) :=
  ⟨h.stands.cleanFrom.after_count.stands, h.cfg, h.awake, h.clkrdy⟩

/-- A frame of the bank-switch sequence, with another step to follow (R107). -/
theorem InitStands.send {m : Micro} {j : Instr} (hm : (expansion c (.init i))[k]? = some m) (hact : m.act = .send j)
    (hsrc : j ≠ .src) (hk : k + 1 < (expansion c (.init i)).length)
    (hdev : ∃ e, (outOf j t).dev = { t.dev with regs := { t.dev.regs with econ1 := e } }) :
    InitStands c i (k + 1) ready (blockState t) := by
  obtain ⟨e, he⟩ := hdev
  rw [← h.cfg] at hm hk
  obtain ⟨hsent, hout⟩ := h.stands.sentFrom.send h.awake hm hact hsrc hk
  rw [stepState_idle h.stands.idle] at hsent hout
  rw [he] at hout
  exact ⟨hsent.stands, hsent.cfg.trans h.cfg, by rw [hout]; exact h.awake, by rw [hout]; exact h.clkrdy⟩

end

theorem lt_expansion_init_length (c : Config) (i : InitCfg) : 24 < (expansion c (.init i)).length := by
  rw [initializeStepCount c i]
  omega

section

variable {c : Config} {i : InitCfg} {k : Nat} {t : State} (hmap : DefaultMap c)

include hmap

/-- The first two moves of a poll are the bank-switch sequence (R107, R115). -/
theorem InitStands.bankSwitch {ready : Bool} (hk : k = 21 ∨ k = 22) (h : InitStands c i k ready t) :
    InitStands c i (k + 1) ready (blockState t) := by
  have hlen := lt_expansion_init_length c i
  have heth := econ1_eth (h.cfg ▸ hmap) (bsel t.dev.regs)
  obtain ⟨rest, hsteps⟩ := init_poll hmap i
  have hmicro := getElem?_of_drop hsteps.symm
  rcases hk with rfl | rfl
  · exact h.send (hmicro 0) rfl (by simp) (by omega) ⟨_, outOf_bfc_econ1_dev heth _⟩
  · exact h.send (hmicro 1) rfl (by simp) (by omega) ⟨_, outOf_bfs_econ1_dev heth _⟩

/-- The third move reads ESTAT, and the poll's condition is CLKRDY (R90, R150). -/
theorem InitStands.poll {ready : Bool} (h : InitStands c i 23 ready t) :
    ∃ u, InitStands c i 23 ready u ∧ pollMet .set (responseByte u) clkrdyMask = ready ∧
      blockState t = consume (.init i) (.poll 0x1D clkrdyMask .set) u := by
  obtain ⟨rest, hsteps⟩ := init_poll hmap i
  have hmicro := getElem?_of_drop hsteps.symm 2
  rw [← h.cfg] at hmicro hmap
  have hmove := h.stands.stepState_of_micro h.awake hmicro (i := .rcr 0x1D (rcrFill false)) rfl (by simp)
  obtain ⟨bs, free, hout⟩ := rcrOut_value (s := t) (a := 0x1D) (mac := false) (estat_eth hmap _)
  have hsent := h.stands.sentFrom.after_frame (encode (.rcr 0x1D (rcrFill false))) (outOf (.rcr 0x1D (rcrFill false)) t)
  rw [stepState_idle h.stands.idle] at hmove
  rw [outOf, hout] at hmove hsent
  refine ⟨_, ⟨hsent.stands, h.cfg, h.awake, h.clkrdy⟩, ?_, hmove⟩
  rw [responseByte, endFrame_rx, List.getLast?_concat, Option.getD_some, pollMet_clkrdy, h.clkrdy]

/-- With CLKRDY set each move of the block brings the wait a step nearer to its end (R150). -/
theorem InitStands.block_ready (hk : 21 ≤ k ∧ k < 24) (h : InitStands c i k true t) :
    InitStands c i (k + 1) true (blockState t) := by
  obtain hk | rfl : (k = 21 ∨ k = 22) ∨ k = 23 := by omega
  · exact h.bankSwitch hmap hk
  · obtain ⟨u, hu, hmet, hmove⟩ := h.poll hmap
    have hlen := lt_expansion_init_length u.cfg i
    rw [hmove, consume, if_pos hmet, hu.stands.advance_next hlen]
    exact hu.after_goto 24 true

/-- With CLKRDY clear and no poll limit the block polls on (R115, R150). -/
theorem InitStands.block_not_ready (hlimit : c.pollLimit = none) (hk : 21 ≤ k ∧ k < 24) (h : InitStands c i k false t) :
    ∃ l, (21 ≤ l ∧ l < 24) ∧ InitStands c i l false (blockState t) := by
  obtain hk | rfl : (k = 21 ∨ k = 22) ∨ k = 23 := by omega
  · exact ⟨k + 1, by omega, h.bankSwitch hmap hk⟩
  · obtain ⟨u, hu, hunmet, hmove⟩ := h.poll hmap
    have hbelow : limitReached u.cfg (u.blk.pollcnt + 1) = false := by simp only [limitReached, hu.cfg, hlimit]
    rw [hmove, consume, if_neg (by simp [hunmet]), pollAgain_below hbelow, hu.stands.step]
    exact ⟨21, by omega, hu.after_count.after_goto 21 false⟩

end

/-! ### The wait under a fair schedule (R34) -/

/-- What every other move keeps still holds when an agent that moves again and again has its next move (R34). -/
theorem exists_move_of_fair {σ : Schedule} {e : Event} {P : Nat → Prop} (hfair : ∀ n, ∃ m, n ≤ m ∧ σ m = e)
    (hkeep : ∀ n, σ n ≠ e → P n → P (n + 1)) {n : Nat} (h : P n) : ∃ m, σ m = e ∧ P m := by
  obtain ⟨m, hnm, hm⟩ := hfair n
  obtain ⟨j, rfl⟩ := Nat.exists_eq_add_of_le hnm
  clear hnm
  induction j generalizing n with
  | zero => exact ⟨n, hm, h⟩
  | succ j ih =>
    by_cases hn : σ n = e
    · exact ⟨n, hn, h⟩
    · exact ih (hkeep n hn h) (by rwa [Nat.add_right_comm])

/-- Each move of a schedule is that event's, on the state before it (log 1). -/
theorem scheduled_eventState (σ : Schedule) (s : State) (n : Nat) :
    scheduled σ s (n + 1) = eventState (σ n) (withMoves [] (scheduled σ s n)) := by
  rw [scheduled_succ, stepState_event rfl]
  rfl

theorem phyComplete_clkrdy (d : Device) : (phyComplete d).clkrdy = d.clkrdy := by
  unfold phyComplete
  split <;> rfl

theorem rxArrive_clkrdy (c : Config) (n : Nat) (f : List Byte) (w : Word) (d : Device) :
    (rxArrive c n f w d).clkrdy = d.clkrdy := by
  rcases rxArrive_cases c n f w d with h | ⟨-, h | ⟨-, -, ⟨-, h⟩ | ⟨-, h⟩⟩⟩ <;> rw [h] <;> rfl

section

variable {c : Config} {i : InitCfg} {k : Nat} {ready : Bool} {t : State} (h : InitStands c i k ready t)

include h

/-- The clock agent makes CLKRDY true (R34). -/
theorem InitStands.clock : InitStands c i k true (eventState .clock t) := h.onDevice (f := clockReady) rfl

/-- The PHY engine and the RX engine leave CLKRDY (R123, R142). -/
theorem InitStands.engine {e : Event} (he : e = .phy ∨ ∃ f w, e = .rx f w) :
    InitStands c i k ready (eventState e t) := by
  rcases he with rfl | ⟨f, w, rfl⟩
  · have hphy := h.onDevice (phyComplete_pwrsv t.dev)
    rwa [phyComplete_clkrdy, h.clkrdy] at hphy
  · have hrx := h.onDevice (rxArrive_pwrsv t.cfg t.draws f w t.dev)
    rwa [rxArrive_clkrdy, h.clkrdy] at hrx

end

/-- The initialization is in its clock-ready wait (R150). -/
def InClockWait (c : Config) (i : InitCfg) (ready : Bool) (t : State) : Prop :=
  ∃ k, (21 ≤ k ∧ k < 24) ∧ InitStands c i k ready t

section

variable {c : Config} {i : InitCfg} {σ : Schedule} {s : State} {n : Nat}

/-- What a move brings about stands at the next instant. -/
theorem InitStands.scheduled {k : Nat} {ready : Bool}
    (h : InitStands c i k ready (eventState (σ n) (withMoves [] (scheduled σ s n)))) :
    InitStands c i k ready (withMoves [] (scheduled σ s (n + 1))) := by
  rwa [scheduled_eventState, withMoves_of_agenda h.stands.idle]

variable (hmap : DefaultMap c) (hmoves : ∀ n, σ n = .block ∨ σ n = .clock ∨ σ n = .phy ∨ ∃ f w, σ n = .rx f w)

include hmap hmoves

/-- Under a fair clock agent CLKRDY becomes true while the block polls (R34, R150). -/
theorem exists_ready_in_clockWait (hlimit : c.pollLimit = none) (hfair : FairClock σ)
    (h : InClockWait c i false (withMoves [] (scheduled σ s n))) :
    ∃ m, InClockWait c i true (withMoves [] (scheduled σ s m)) := by
  have hkeep : ∀ n, σ n ≠ .clock → InClockWait c i false (withMoves [] (scheduled σ s n)) →
      InClockWait c i false (withMoves [] (scheduled σ s (n + 1))) := by
    rintro n hn ⟨k, hk, hwait⟩
    rcases hmoves n with he | he | he
    · obtain ⟨l, hl, hback⟩ := hwait.block_not_ready hmap hlimit hk
      exact ⟨l, hl, InitStands.scheduled (by rwa [he])⟩
    · exact absurd he hn
    · exact ⟨k, hk, (hwait.engine he).scheduled⟩
  obtain ⟨m, he, k, hk, hm⟩ := exists_move_of_fair hfair hkeep h
  exact ⟨m + 1, k, hk, InitStands.scheduled (he ▸ hm.clock)⟩

/-- Once CLKRDY is true a block that moves again and again comes to the end of the wait (R150). -/
theorem exists_clockWait_end (hblock : ∀ n, ∃ m, n ≤ m ∧ σ m = .block)
    (h : InClockWait c i true (withMoves [] (scheduled σ s n))) :
    ∃ m, InitStands c i 24 true (withMoves [] (scheduled σ s m)) := by
  obtain ⟨k, ⟨hk, hlt⟩, h⟩ := h
  obtain ⟨j, hj⟩ := Nat.exists_eq_add_of_le hlt.le
  clear hlt
  induction j generalizing k n with
  | zero => exact ⟨n, by rwa [hj]⟩
  | succ j ih =>
    have hkeep : ∀ n, σ n ≠ .block → InitStands c i k true (withMoves [] (scheduled σ s n)) →
        InitStands c i k true (withMoves [] (scheduled σ s (n + 1))) := by
      intro n hn hwait
      rcases hmoves n with he | he | he
      · exact absurd he hn
      · exact InitStands.scheduled (he ▸ hwait.clock)
      · exact (hwait.engine he).scheduled
    obtain ⟨m, he, hm⟩ := exists_move_of_fair hblock hkeep h
    have hnext := hm.block_ready hmap ⟨hk, by omega⟩
    exact ih (k + 1) (InitStands.scheduled (by rwa [he])) (by omega) (by omega)

end

/-- Settles O59: the clock agent's step and one poll end the wait; under a fair schedule the clock agent's step comes while
the block polls, and then the block's moves that finish a poll. -/
theorem clockReadyEndsTheWait : Obligations.ClockReadyEndsTheWait := by
  refine ⟨fun s i hquiet hmap hop hstep => ?_, fun s i σ hready hmap hlimit hop hstep hfair hblock hmoves => ?_⟩
  · have ⟨hidle, _, _, hawake⟩ := hquiet
    have h₀ : InitStands s.cfg i 21 true (eventState .clock s) :=
      InitStands.clock ⟨hquiet.stands hop hstep, rfl, hawake, rfl⟩
    have h₁ := h₀.block_ready hmap (by omega)
    have h₂ := h₁.block_ready hmap (by omega)
    have h₃ := h₂.block_ready hmap (by omega)
    refine ⟨_, run_eq 4 _, ?_⟩
    have hclock : stepState { s with agenda := [.clock] } = eventState .clock s := by
      rw [stepState_event rfl]
      exact congrArg (eventState .clock) (withMoves_of_agenda hidle)
    simp only [runState, hclock, stepState_idle h₀.stands.idle, stepState_idle h₁.stands.idle,
      stepState_idle h₂.stands.idle]
    exact ⟨h₃.stands.op, h₃.stands.step, h₃.clkrdy⟩
  · obtain ⟨hbus, hsettled, hawake⟩ := hready
    have h₀ : InClockWait s.cfg i s.dev.clkrdy (withMoves [] (scheduled σ s 0)) :=
      ⟨21, by omega, ⟨rfl, hbus, hsettled, hop, hstep⟩, rfl, hawake, rfl⟩
    have hclock : ∃ n, InClockWait s.cfg i true (withMoves [] (scheduled σ s n)) := by
      cases hclkrdy : s.dev.clkrdy with
      | false => exact exists_ready_in_clockWait hmap hmoves hlimit hfair (hclkrdy ▸ h₀)
      | true => exact ⟨0, hclkrdy ▸ h₀⟩
    obtain ⟨n, hn⟩ := hclock
    obtain ⟨m, hm⟩ := exists_clockWait_end hmap hmoves hblock hn
    exact ⟨m, hm.stands.op, hm.stands.step, hm.clkrdy⟩

end Sys2Proof.Machine
end

section
/-! ## systemReset (R104, R105, R148, R149) -/

namespace Sys2Proof.Machine

/-- From its first step a system reset sends its frame, and its second step, which sends none, ends the delay and the
operation (R148). -/
theorem runState_systemReset {s : State} (hidle : s.agenda = []) (hfree : s.BusFree)
    (hop : s.blk.op = some .systemReset) (hstep : s.blk.step = 0) :
    runState 2 s = finish .unit (settle (goto .systemReset 1 true (execState .src s))) := by
  obtain ⟨hop', hstep'⟩ := execState_op_step .src hfree.1
  have hsend : stepState s = goto .systemReset 1 true (execState .src s) := by
    rw [stepState_idle hidle, blockState_of_blockInstr (i := .src), afterFrame_systemReset]
    · exact hop'.trans hop
    · exact hstep'.trans hstep
    · simp [blockInstr, currentMicro, hop, hstep, expansion, actInstr]
  have hdelay : currentMicro (stepState s) = some { act := .settle } := by
    simp [hsend, currentMicro, hop'.trans hop, expansion]
  have hquiet : blockInstr (stepState s) = none := by rw [blockInstr, hdelay]; rfl
  rw [runState, runState, runState, stepState_idle (by simp [hsend, hidle]), blockState_of_blockInstr_none hquiet,
    blockQuiet, hdelay, hsend]
  simp [hop'.trans hop, consume, advance, expansion]

/-- Settles O31: SRC leaves the device in DEV_RESET and begins the delay, and the step without a frame ends it. -/
theorem systemResetOperation : Obligations.SystemResetOperation := by
  intro s _ hfree hop
  have hfree' : (started .systemReset s).BusFree := hfree
  have hrun := runState_systemReset rfl hfree' rfl rfl
  obtain ⟨hregs, hphyop, hclkrdy, hmem⟩ := resetDevice_values s.cfg s.draws
  refine ⟨_, run_request hop rfl 2, ?_⟩
  rw [hrun, execState_src_free hfree']
  refine ⟨rfl, rfl, rfl, rfl, hregs, hphyop, hclkrdy, hmem, List.map_append, rfl, rfl, rfl, rfl, rfl, rfl, rfl, rfl, rfl,
    insertFaults_nil _⟩

end Sys2Proof.Machine
end

section
/-! ## sendPacket (R55, R99, R146) -/

namespace Sys2Proof.Machine

/-! ### Streams of bytes written one after the other -/

/-- The device once bytes have been written from EWRPT on (R99). -/
def afterWbm (data : List Byte) (d : Device) : Device :=
  { d with
    regs := { d.regs with ewrpt := (writeBuffer d.regs data d.mem d.regs.ewrpt).ptr }
    mem := (writeBuffer d.regs data d.mem d.regs.ewrpt).mem }

theorem outOf_wbm_dev (data : List Byte) (s : State) : (outOf (.wbm data) s).dev = afterWbm data s.dev := rfl

/-- Where a byte goes does not depend on EWRPT as it was at the beginning of the frame (R62). -/
theorem writeBuffer_with_ewrpt (r : DevRegs) (q : Ptr) (bs : List Byte) (m : List Host.Cell) (p : Ptr) :
    writeBuffer { r with ewrpt := q } bs m p = writeBuffer r bs m p := by
  induction bs generalizing m p with
  | nil => rfl
  | cons b bs ih => exact ih _ _

theorem writeBuffer_append (r : DevRegs) (bs bs' : List Byte) (m : List Host.Cell) (p : Ptr) :
    writeBuffer r (bs ++ bs') m p = writeBuffer r bs' (writeBuffer r bs m p).mem (writeBuffer r bs m p).ptr := by
  induction bs generalizing m p with
  | nil => rfl
  | cons b bs ih => exact ih _ _

/-- A frame's bytes follow those of the frame before: two frames leave what one with all the bytes leaves (R99). -/
theorem afterWbm_afterWbm (bs bs' : List Byte) (d : Device) : afterWbm bs' (afterWbm bs d) = afterWbm (bs ++ bs') d := by
  simp only [afterWbm, writeBuffer_append, writeBuffer_with_ewrpt]

/-- With AUTOINC = 1 the k-th byte written stands k places on from EWRPT (R62, R99). -/
theorem afterWbm_read {d : Device} (hauto : autoinc d.regs = true) {bs : List Byte} (hlen : bs.length ≤ 8192) {k : Nat}
    (hk : k < bs.length) : Memory.read (afterWbm bs d).mem ((d.regs.ewrpt.toNat + k) % 8192) = bs[k]? :=
  writeBuffer_get hauto bs d.mem d.regs.ewrpt hlen hk

theorem afterWbm_ewrpt {d : Device} (hauto : autoinc d.regs = true) (bs : List Byte) :
    (afterWbm bs d).regs.ewrpt.toNat = (d.regs.ewrpt.toNat + bs.length) % 8192 := by
  simp only [afterWbm, writeBuffer_ptr, advanceWrite_iterate_toNat hauto]

/-! ### The frames of an operation that writes a stream -/

section

variable {s t : State} {o : Op} {k : Nat} {txs : List (List Byte)} {sent data : List Byte}
  (h : CleanFrom s o k txs (afterWbm sent s.dev) t) (hawake : pwrsv s.dev.regs = false)
  (hm : (expansion s.cfg o)[k]? = some { act := .send (.wbm data) })

include h hawake hm

/-- One WBM of an operation, with another to follow: its bytes go where those sent before end (R99, R146). -/
theorem CleanFrom.wbm {data' : List Byte} (hm' : (expansion s.cfg o)[k + 1]? = some { act := .send (.wbm data') }) :
    CleanFrom s o (k + 1) (txs ++ [0x7A :: data]) (afterWbm (sent ++ data) s.dev) (stepState t) := by
  obtain ⟨hnext, -⟩ := h.send (i := .wbm data) hawake hm rfl (by simp) hm' rfl rfl
  rwa [outOf_wbm_dev, h.dev, afterWbm_afterWbm] at hnext

/-- The last WBM of an operation, which then returns (R18). -/
theorem CleanFrom.wbm_last (hlast : (expansion s.cfg o).length = k + 1) :
    ∃ u, CleanFrom s o k (txs ++ [0x7A :: data]) (afterWbm (sent ++ data) s.dev) u ∧ stepState t = finish .unit u := by
  have hu := h.after_frame (encode (.wbm data)) (out := outOf (.wbm data) t) rfl
  have hstep := h.stands.stepState_of_micro (by rw [h.dev]; exact hawake) (h.cfg ▸ hm) rfl (by simp)
  rw [consume, hu.stands.advance_last (by rw [hu.cfg, hlast])] at hstep
  rw [outOf_wbm_dev, h.dev, afterWbm_afterWbm] at hu
  exact ⟨_, hu, hstep⟩

end

@[simp] theorem lenBytes_length (o : ByteOrder) (v : Word) : (lenBytes o v).length = 2 := by
  cases o <;> rfl

/-- Settles O58: each of the five frames goes on where the one before it ended, so the bytes lie in one row. -/
theorem sendPacketLayout : Obligations.SendPacketLayout := by
  intro s dst payload hquiet hop hauto len bytes
  have ⟨_, _, _, hawake⟩ := hquiet
  have hlen : lenBytes s.cfg.txLenOrder s.cfg.frameLen = len := rfl
  have hexp : expansion s.cfg (.sendPacket dst payload) = [{ act := .send (.wbm [0x00]) },
      { act := .send (.wbm dst.toList) }, { act := .send (.wbm s.cfg.srcMac.toList) }, { act := .send (.wbm len) },
      { act := .send (.wbm payload) }] := by rw [← hlen]; rfl
  have hbytes : bytes.length = 15 + payload.length := by
    simp [bytes, ← hlen]
    omega
  have h₀ : CleanFrom s (.sendPacket dst payload) 0 [] (afterWbm [] s.dev) (started (.sendPacket dst payload) s) :=
    started_cleanFrom hquiet _
  have h₁ := h₀.wbm hawake (by rw [hexp]; rfl) (by rw [hexp]; rfl)
  have h₂ := h₁.wbm hawake (by rw [hexp]; rfl) (by rw [hexp]; rfl)
  have h₃ := h₂.wbm hawake (by rw [hexp]; rfl) (by rw [hexp]; rfl)
  have h₄ := h₃.wbm hawake (by rw [hexp]; rfl) (by rw [hexp]; rfl)
  obtain ⟨u, hu, hlast⟩ := h₄.wbm_last hawake (by rw [hexp]; rfl) (by rw [hexp]; rfl)
  have hdev : (finish .unit u).dev = afterWbm bytes s.dev := hu.dev
  refine ⟨_, run_request hop rfl 5, ?_⟩
  simp only [runState]
  rw [hlast, hdev]
  refine ⟨rfl, rfl, hu.faults, hu.log, hbytes ▸ afterWbm_ewrpt hauto bytes, fun hfits k hk => ?_, rfl⟩
  exact afterWbm_read hauto (hbytes ▸ hfits) (hbytes ▸ hk)

end Sys2Proof.Machine
end

section
/-! ## What a move leaves of the parameters (R9) -/

namespace Sys2Proof.Machine

@[simp] theorem transact_cfg (tx : List Byte) (out : DevOut) (s : State) : (transact tx out s).cfg = s.cfg :=
  (transact_leaves tx out s).2.2.1

@[simp] theorem execState_cfg (i : Instr) (s : State) : (execState i s).cfg = s.cfg := by
  obtain ⟨_, _, h, -⟩ := execState_eq_transact i s
  rw [h, transact_cfg]

@[simp] theorem frameState_cfg (tx : List Byte) (s : State) : (frameState tx s).cfg = s.cfg := by
  unfold frameState
  split
  · exact execState_cfg _ s
  · rfl
  · exact transact_cfg tx _ s
  · exact transact_cfg tx _ s

@[simp] theorem blockState_cfg (s : State) : (blockState s).cfg = s.cfg := by
  unfold blockState
  split
  · rw [afterFrame_cfg, frameState_cfg]
  · exact blockQuiet_cfg s

@[simp] theorem eventState_cfg (e : Event) (s : State) : (eventState e s).cfg = s.cfg := by
  cases e with
  | block => exact blockState_cfg s
  | request o => exact request_cfg o s
  | frame tx => exact frameState_cfg tx s
  | callerStore | busFail | phy | clock | rx | powerOn | blockReset => rfl

/-- Settles O7: each move is a function of the state, and neither the block's nor an event's writes the parameters. -/
theorem stepNeverStops : Obligations.StepNeverStops := by
  intro s
  refine ⟨stepState s, step_eq s, ?_⟩
  cases hagenda : s.agenda with
  | nil => rw [stepState_idle hagenda, blockState_cfg]
  | cons e rest => rw [stepState_event hagenda, eventState_cfg]

end Sys2Proof.Machine
end

section
/-! ## The model faults of a move (R26, R161, R162) -/

namespace Sys2Proof.Machine

/-! ### What each move records -/

/-- While an operation runs, a request is refused (R162). -/
theorem request_busy {s : State} {p : Op} (hop : s.blk.op = some p) (o : Op) :
    request o s = recordFault .reentry s := by
  simp only [request, hop]

/-- The one model fault a request can record is F_REENTRY (R161, R162). -/
theorem request_faults (o : Op) (s : State) :
    (request o s).blk.faults = s.blk.faults ∨ (request o s).blk.faults = insertFault s.blk.faults .reentry := by
  unfold request
  split
  · exact .inr rfl
  · split
    · exact .inl rfl
    · exact .inl (goto_faults o 0 true _)

/-- The one model fault a move without a frame can record is F_RX_OVERFLOW (R135, R161). -/
theorem blockQuiet_faults (s : State) :
    (blockQuiet s).blk.faults = s.blk.faults ∨ (blockQuiet s).blk.faults = insertFault s.blk.faults .rxOverflow := by
  unfold blockQuiet
  split
  · split
    · exact .inl (consume_faults _ .settle s)
    · exact .inr rfl
  · exact .inl rfl
  · split <;> exact .inl rfl

/-- A transaction records the model faults its frame does: SRC's settling states are beside them (R104). -/
theorem execState_faults (i : Instr) (s : State) :
    (execState i s).blk.faults = (transact (encode i) (outOf i s) s).blk.faults := by
  obtain ⟨_, _, h, -⟩ := execState_eq_transact i s
  rw [h]

/-! ### Recorded faults stay -/

section

variable {s : State} {f : ModelFault} (hf : f ∈ s.blk.faults)

include hf

theorem mem_faults_of_recorded {fs : List ModelFault} {g : ModelFault}
    (h : fs = s.blk.faults ∨ fs = insertFault s.blk.faults g) : f ∈ fs := by
  rcases h with rfl | rfl
  · exact hf
  · exact mem_insertFault.2 (.inl hf)

theorem mem_frameState_faults (tx : List Byte) : f ∈ (frameState tx s).blk.faults := by
  unfold frameState
  split
  · rw [execState_faults]
    exact mem_transact_faults_of (.inl hf) _ _
  · exact hf
  · exact mem_transact_faults_of (.inl hf) _ _
  · exact mem_transact_faults_of (.inl hf) _ _

theorem mem_blockState_faults : f ∈ (blockState s).blk.faults := by
  unfold blockState
  split
  · rw [afterFrame_faults]
    exact mem_frameState_faults hf _
  · exact mem_faults_of_recorded hf (blockQuiet_faults s)

/-- Only a block reset empties x[FAULTS] (R26, R47). -/
theorem mem_eventState_faults {e : Event} (he : e ≠ .blockReset) : f ∈ (eventState e s).blk.faults := by
  cases e with
  | block => exact mem_blockState_faults hf
  | request o => exact mem_faults_of_recorded hf (request_faults o s)
  | frame tx => exact mem_frameState_faults hf tx
  | blockReset => exact absurd rfl he
  | callerStore | busFail | phy | clock | rx | powerOn => exact hf

end

/-- Settles O8: a frame, a request and a move without a frame only add to x[FAULTS], and the other moves leave it. -/
theorem modelFaultsAreNeverCleared : Obligations.ModelFaultsAreNeverCleared := by
  intro s t hreset hstep f hf
  rcases step_cases hstep with ⟨-, rfl⟩ | ⟨e, rest, hagenda, rfl⟩
  · exact mem_blockState_faults hf
  · have he : e ≠ .blockReset := by
      rintro rfl
      exact hreset rest hagenda
    exact mem_eventState_faults (s := { s with agenda := rest }) hf he

/-- Settles O32: the request is refused, which records F_REENTRY alone. -/
theorem requestWhileBusyIsRefused : Obligations.RequestWhileBusyIsRefused := by
  intro s o p rest hagenda hop
  refine ⟨_, step_eq s, ?_⟩
  have hrefused : stepState s = recordFault .reentry { s with agenda := rest } :=
    (stepState_event hagenda).trans (request_busy (s := { s with agenda := rest }) hop o)
  rw [hrefused]
  exact ⟨mem_insertFault.2 (.inr rfl), rfl, fun f hf => mem_insertFault.1 hf⟩

/-! ### The block's own frames (R80, R88, R161) -/

/-- F_SETTLE, F_FRAME_LENGTH and F_RESERVED_OPCODE, the model faults of a frame the block must not send (R161). -/
abbrev ModelFault.OfFrame (f : ModelFault) : Prop := f = .settle ∨ f = .frameLength ∨ f = .reservedOpcode

/-- The device side of a well-formed transaction finds nothing wrong with its length (R80). -/
theorem frameLength_not_mem_outOf {i : Instr} (hwf : i.WellFormed) (s : State) :
    .frameLength ∉ (outOf i s).faults := by
  intro h
  cases i with
  | rcr a fill => rcases hwf with hlen | hlen <;> simp [outOf, rcrOut, hlen] at h
  | wcr a v => cases devWrite_faults _ _ _ _ _ _ h
  | bfs a m | bfc a m =>
    simp only [outOf, bitFieldOut] at h
    split at h
    · cases List.mem_singleton.1 h
    · cases devWrite_faults _ _ _ _ _ _ h
  | rbm | wbm | src => cases h

/-- The device side of a well-formed transaction records a refused bit-field operation or a PHY overlap, and nothing
about the frame itself (R101, R103, R123). -/
theorem not_ofFrame_of_mem_outOf {i : Instr} (hwf : i.WellFormed) {s : State} {f : ModelFault}
    (h : f ∈ (outOf i s).faults) : ¬ f.OfFrame := by
  rcases outOf_faults i s h with rfl | rfl | rfl
  · exact absurd h (frameLength_not_mem_outOf hwf s)
  · decide
  · decide

section

variable {s : State} {f : ModelFault} (hf : f.OfFrame)

include hf

theorem mem_of_mem_execState_faults {i : Instr} (hwf : i.WellFormed) (hquiet : s.settling = false)
    (h : f ∈ (execState i s).blk.faults) : f ∈ s.blk.faults := by
  rw [execState_faults] at h
  rcases of_mem_transact_faults h with h | ⟨-, hs⟩ | h
  · exact h
  · rw [hquiet] at hs
    cases hs
  · exact absurd hf (not_ofFrame_of_mem_outOf hwf h)

theorem mem_of_mem_recorded {fs : List ModelFault} {g : ModelFault} (hg : ¬ g.OfFrame)
    (hfs : fs = s.blk.faults ∨ fs = insertFault s.blk.faults g) (h : f ∈ fs) : f ∈ s.blk.faults := by
  rcases hfs with rfl | rfl
  · exact h
  · rcases mem_insertFault.1 h with h | rfl
    · exact h
    · exact absurd hf hg

/-- The block sends well-formed frames, and none while a side settles (R65, R80). -/
theorem mem_of_mem_blockState_faults (hown : s.OwnFrames) (h : f ∈ (blockState s).blk.faults) :
    f ∈ s.blk.faults := by
  cases hi : blockInstr s with
  | none =>
    rw [blockState_of_blockInstr_none hi] at h
    exact mem_of_mem_recorded hf (by decide) (blockQuiet_faults s) h
  | some i =>
    rw [blockState_of_blockInstr hi, afterFrame_faults] at h
    exact mem_of_mem_execState_faults hf (blockInstr_cases hi).1 (hown.not_settling_of_blockInstr hi) h

theorem mem_of_mem_eventState_faults (hown : s.OwnFrames) {e : Event} (he : e.foreign = false)
    (h : f ∈ (eventState e s).blk.faults) : f ∈ s.blk.faults := by
  cases e with
  | block => exact mem_of_mem_blockState_faults hf hown h
  | request o => exact mem_of_mem_recorded hf (by decide) (request_faults o s) h
  | frame | blockReset => cases he
  | callerStore | busFail | phy | clock | rx | powerOn => exact h

end

/-- Settles O36: only a frame records one of the three, and the block's own is well-formed and outside every settling
delay. -/
theorem ownFramesRaiseNoFrameFault : Obligations.OwnFramesRaiseNoFrameFault := by
  intro s t hown hstep f h hf
  rcases step_cases hstep with ⟨-, rfl⟩ | ⟨e, rest, hagenda, rfl⟩
  · exact mem_of_mem_blockState_faults hf hown h
  · have hevents := hown.no_foreign
    rw [hagenda, List.forall_mem_cons] at hevents
    have taken : State.OwnFrames { s with agenda := rest } := ⟨hevents.2, hown.settling_inside⟩
    exact mem_of_mem_eventState_faults (s := { s with agenda := rest }) hf taken hevents.1 h

end Sys2Proof.Machine
end

section
/-! ## A frame the bus fails (R14, R155, R156) -/

namespace Sys2Proof.Machine

/-- A transaction the bus fails raises BusFault; for SRC too no settling delay begins (R104, R156, log 19). -/
theorem execState_failed {s : State} {received : List Byte} (hb : s.bus = some received) (i : Instr) :
    execState i s =
      raise .busFault { endFrame (encode i) (failedOut (encode i) received s) (beginFrame s) with bus := none } := by
  by_cases hi : i = .src
  · subst hi
    simp only [execState, beginSettling, hb, Option.isSome_some, if_true]
    exact transact_failed hb _ _
  · rw [execState_of_ne_src hi, transact_failed hb]

/-- The response of a failed frame has the frame's length (R156). -/
theorem failedOut_rx_length (tx received : List Byte) (s : State) :
    (failedOut tx received s).rx.length = tx.length := by
  simp [failedOut]

/-- The response of a failed frame begins with the bytes the bus received (R156). -/
theorem failedOut_rx_received {tx received : List Byte} {s : State} {k : Nat}
    (hk : k < (failedOut tx received s).rx.length) (hrec : k < received.length) :
    (failedOut tx received s).rx[k]? = received[k]? := by
  rw [failedOut_rx_length] at hk
  rw [failedOut, List.getElem?_take_of_lt hk, List.getElem?_append_left hrec]

/-- Settles O14: the failed frame is logged with its response, and the raise ends the operation and writes no latch. -/
theorem failedFrameRaisesBusFault : Obligations.FailedFrameRaisesBusFault := by
  intro i s received hb
  refine ⟨_, exec_eq i s, ?_⟩
  rw [execState_failed hb]
  refine ⟨rfl, rfl, rfl, rfl, rfl, rfl, rfl, rfl,
    ⟨_, failedOut_rx_length (encode i) received s, fun _ hk hrec => failedOut_rx_received hk hrec, rfl⟩,
    rfl, rfl, rfl, rfl, rfl, fun f hf => ?_⟩
  have hbegin : f ∈ (beginFrame s).blk.faults := hf
  exact (mem_beginFrame_faults.1 hbegin).imp_right And.left

end Sys2Proof.Machine
end
